-- ==== Sys2Proof/Word.lean ====
section
/-! DEFINITION. The machine's word and byte (00_scope.md rules R7 and R8): every register is 32 bits wide, a byte 8. -/

namespace Sys2Proof

/-- A 32-bit register value or address (00_scope.md rule R8; XLEN is 32, rule R6). -/
abbrev Word := BitVec 32

/-- One byte of memory (20_memory.md rule R60). -/
abbrev Byte := BitVec 8

end Sys2Proof
end

