-- ==== Sys2Proof/Config.lean ====
section
/-! DEFINITION. The parameters the spec leaves to the implementation (00_scope.md rule R6) and the free values.
XLEN is fixed at 32, HAS_FPU and HAS_CP at false, NASR at the empty set; WR_DELAY is unobservable under
70_reset_and_hazards.md rule R380; IRL is an input of each step (`Machine.Input`). -/

namespace Sys2Proof

/-- NWINDOWS, the number of register windows: exactly the legal values of rule R6 (10_state.md rule R30). -/
inductive NWindows where
  | w2 | w4 | w8 | w16 | w32
  deriving DecidableEq, Repr

/-- The number a value of `NWindows` names. -/
def NWindows.toNat : NWindows → Nat
  | .w2 => 2
  | .w4 => 4
  | .w8 => 8
  | .w16 => 16
  | .w32 => 32

/-- SMUL_OP3 (92_eei_decisions.md D24): `source` is 001001, `published` is 001011. -/
inductive SmulOp3 where
  | source | published
  deriving DecidableEq, Repr

/-- RESERVED_POLICY (30_encoding.md rule R115): what a nonzero reserved instruction field does. -/
inductive ReservedPolicy where
  | refuse | ignore
  deriving DecidableEq, Repr

/-- The model's parameters. A machine's parameters stand in its state (`State.cfg`) and no step changes them, so
that what is proved of every state is proved for every legal value of every parameter. -/
structure Config where
  /-- NWINDOWS. -/
  nwindows : NWindows
  /-- PSR_IMPL, the read-only field PSR.impl. -/
  psrImpl : BitVec 4
  /-- PSR_VER, the read-only field PSR.ver. -/
  psrVer : BitVec 4
  /-- SMUL_OP3. -/
  smulOp3 : SmulOp3
  /-- RESERVED_POLICY. -/
  reservedPolicy : ReservedPolicy
  /-- MEM_MAP (20_memory.md rule R70): the populated addresses, as closed ranges (first, last). -/
  memMap : List (Word × Word)
  deriving DecidableEq, Repr

/-- The defaults of rule R6. -/
def Config.specDefault : Config where
  nwindows := .w8
  psrImpl := 0
  psrVer := 0
  smulOp3 := .source
  reservedPolicy := .refuse
  memMap := [(0, 0xFFFFFFFF)]

/-- FREE VALUES: the k-th value the spec leaves unspecified ("any value", 93_implementation_defined.md U17 and
U18), drawn at the counter `State.freeCount`. It has no body: nothing constrains it. Log entry 4. -/
opaque Config.freeWord : Nat → Word

end Sys2Proof
end

