-- ==== Sys2Proof/Syntax.lean ====
section
/-! DEFINITION. The instructions: one constructor per row of spec/opcode_table.json, in the table's order, with the
operand fields of 30_encoding.md rule R96. -/

namespace Sys2Proof

/-- A 5-bit register field, naming one of r0 .. r31 (10_state.md rule R21). -/
abbrev RegIdx := BitVec 5

/-- Operand 2 of format 3 (00_scope.md rule R10): x[rs2] when i = 0, the signed immediate simm13 when i = 1. -/
inductive Operand2 where
  | reg (rs2 : RegIdx)
  | imm (simm13 : BitVec 13)
  deriving DecidableEq, Repr

/-- The count operand of a shift (30_encoding.md rule R102): the low five bits of x[rs2], or the field shcnt. -/
inductive ShiftCount where
  | reg (rs2 : RegIdx)
  | imm (shcnt : BitVec 5)
  deriving DecidableEq, Repr

/-- The second operand of Ticc (45_trap_instructions.md rule R280): x[rs2], or imm7. -/
inductive TrapNumber where
  | reg (rs2 : RegIdx)
  | imm (imm7 : BitVec 7)
  deriving DecidableEq, Repr

/-- The sixteen conditions of Bicc and Ticc (43_branch.md rule R231), named by the mnemonics' endings. -/
inductive Cond where
  | a | n | ne | e | g | le | ge | l | gu | leu | cc | cs | pos | neg | vc | vs
  deriving DecidableEq, Repr

/-- The instruction set: the 98 rows of the opcode table. -/
inductive Instr where
  /-- UNIMP, 30_encoding.md rule R121. -/
  | unimp (reserved : BitVec 5) (const22 : BitVec 22)
  /-- NOP, 41_logical_shift_sethi.md rule R191. -/
  | nop
  /-- SETHI, 41_logical_shift_sethi.md rule R190. -/
  | sethi (rd : RegIdx) (imm22 : BitVec 22)
  /-- BA, 43_branch.md rule R241. -/
  | ba (a : Bool) (disp22 : BitVec 22)
  /-- BN, 43_branch.md rule R242. -/
  | bn (a : Bool) (disp22 : BitVec 22)
  /-- BNE, 43_branch.md rule R243. -/
  | bne (a : Bool) (disp22 : BitVec 22)
  /-- BE, 43_branch.md rule R244. -/
  | be (a : Bool) (disp22 : BitVec 22)
  /-- BG, 43_branch.md rule R245. -/
  | bg (a : Bool) (disp22 : BitVec 22)
  /-- BLE, 43_branch.md rule R246. -/
  | ble (a : Bool) (disp22 : BitVec 22)
  /-- BGE, 43_branch.md rule R247. -/
  | bge (a : Bool) (disp22 : BitVec 22)
  /-- BL, 43_branch.md rule R248. -/
  | bl (a : Bool) (disp22 : BitVec 22)
  /-- BGU, 43_branch.md rule R249. -/
  | bgu (a : Bool) (disp22 : BitVec 22)
  /-- BLEU, 43_branch.md rule R250. -/
  | bleu (a : Bool) (disp22 : BitVec 22)
  /-- BCC, 43_branch.md rule R251. -/
  | bcc (a : Bool) (disp22 : BitVec 22)
  /-- BCS, 43_branch.md rule R252. -/
  | bcs (a : Bool) (disp22 : BitVec 22)
  /-- BPOS, 43_branch.md rule R253. -/
  | bpos (a : Bool) (disp22 : BitVec 22)
  /-- BNEG, 43_branch.md rule R254. -/
  | bneg (a : Bool) (disp22 : BitVec 22)
  /-- BVC, 43_branch.md rule R255. -/
  | bvc (a : Bool) (disp22 : BitVec 22)
  /-- BVS, 43_branch.md rule R256. -/
  | bvs (a : Bool) (disp22 : BitVec 22)
  /-- CALL, 44_subroutine.md rule R261. -/
  | call (disp30 : BitVec 30)
  /-- ADD, 40_arithmetic.md rule R133. -/
  | add (rd : RegIdx) (rs1 : RegIdx) (op2 : Operand2)
  /-- ADDcc, 40_arithmetic.md rule R134. -/
  | addcc (rd : RegIdx) (rs1 : RegIdx) (op2 : Operand2)
  /-- ADDX, 40_arithmetic.md rule R135. -/
  | addx (rd : RegIdx) (rs1 : RegIdx) (op2 : Operand2)
  /-- ADDXcc, 40_arithmetic.md rule R136. -/
  | addxcc (rd : RegIdx) (rs1 : RegIdx) (op2 : Operand2)
  /-- SUB, 40_arithmetic.md rule R137. -/
  | sub (rd : RegIdx) (rs1 : RegIdx) (op2 : Operand2)
  /-- SUBcc, 40_arithmetic.md rule R138. -/
  | subcc (rd : RegIdx) (rs1 : RegIdx) (op2 : Operand2)
  /-- SUBX, 40_arithmetic.md rule R139. -/
  | subx (rd : RegIdx) (rs1 : RegIdx) (op2 : Operand2)
  /-- SUBXcc, 40_arithmetic.md rule R140. -/
  | subxcc (rd : RegIdx) (rs1 : RegIdx) (op2 : Operand2)
  /-- TADDcc, 40_arithmetic.md rule R142. -/
  | taddcc (rd : RegIdx) (rs1 : RegIdx) (op2 : Operand2)
  /-- TADDccTV, 40_arithmetic.md rule R143. -/
  | taddcctv (rd : RegIdx) (rs1 : RegIdx) (op2 : Operand2)
  /-- TSUBcc, 40_arithmetic.md rule R144. -/
  | tsubcc (rd : RegIdx) (rs1 : RegIdx) (op2 : Operand2)
  /-- TSUBccTV, 40_arithmetic.md rule R145. -/
  | tsubcctv (rd : RegIdx) (rs1 : RegIdx) (op2 : Operand2)
  /-- MULScc, 40_arithmetic.md rule R147. -/
  | mulscc (rd : RegIdx) (rs1 : RegIdx) (op2 : Operand2)
  /-- UMUL, 40_arithmetic.md rule R148. -/
  | umul (rd : RegIdx) (rs1 : RegIdx) (op2 : Operand2)
  /-- UMULcc, 40_arithmetic.md rule R149. -/
  | umulcc (rd : RegIdx) (rs1 : RegIdx) (op2 : Operand2)
  /-- SMUL, 40_arithmetic.md rule R150. -/
  | smul (rd : RegIdx) (rs1 : RegIdx) (op2 : Operand2)
  /-- SMULcc, 40_arithmetic.md rule R151. -/
  | smulcc (rd : RegIdx) (rs1 : RegIdx) (op2 : Operand2)
  /-- UDIV, 40_arithmetic.md rule R152. -/
  | udiv (rd : RegIdx) (rs1 : RegIdx) (op2 : Operand2)
  /-- UDIVcc, 40_arithmetic.md rule R153. -/
  | udivcc (rd : RegIdx) (rs1 : RegIdx) (op2 : Operand2)
  /-- SDIV, 40_arithmetic.md rule R154. -/
  | sdiv (rd : RegIdx) (rs1 : RegIdx) (op2 : Operand2)
  /-- SDIVcc, 40_arithmetic.md rule R155. -/
  | sdivcc (rd : RegIdx) (rs1 : RegIdx) (op2 : Operand2)
  /-- AND, 41_logical_shift_sethi.md rule R171. -/
  | and (rd : RegIdx) (rs1 : RegIdx) (op2 : Operand2)
  /-- ANDcc, 41_logical_shift_sethi.md rule R172. -/
  | andcc (rd : RegIdx) (rs1 : RegIdx) (op2 : Operand2)
  /-- OR, 41_logical_shift_sethi.md rule R173. -/
  | or (rd : RegIdx) (rs1 : RegIdx) (op2 : Operand2)
  /-- ORcc, 41_logical_shift_sethi.md rule R174. -/
  | orcc (rd : RegIdx) (rs1 : RegIdx) (op2 : Operand2)
  /-- XOR, 41_logical_shift_sethi.md rule R175. -/
  | xor (rd : RegIdx) (rs1 : RegIdx) (op2 : Operand2)
  /-- XORcc, 41_logical_shift_sethi.md rule R176. -/
  | xorcc (rd : RegIdx) (rs1 : RegIdx) (op2 : Operand2)
  /-- ANDN, 41_logical_shift_sethi.md rule R177. -/
  | andn (rd : RegIdx) (rs1 : RegIdx) (op2 : Operand2)
  /-- ANDNcc, 41_logical_shift_sethi.md rule R178. -/
  | andncc (rd : RegIdx) (rs1 : RegIdx) (op2 : Operand2)
  /-- ORN, 41_logical_shift_sethi.md rule R179. -/
  | orn (rd : RegIdx) (rs1 : RegIdx) (op2 : Operand2)
  /-- ORNcc, 41_logical_shift_sethi.md rule R180. -/
  | orncc (rd : RegIdx) (rs1 : RegIdx) (op2 : Operand2)
  /-- XNOR, 41_logical_shift_sethi.md rule R181. -/
  | xnor (rd : RegIdx) (rs1 : RegIdx) (op2 : Operand2)
  /-- XNORcc, 41_logical_shift_sethi.md rule R182. -/
  | xnorcc (rd : RegIdx) (rs1 : RegIdx) (op2 : Operand2)
  /-- SLL, 41_logical_shift_sethi.md rule R185. -/
  | sll (rd : RegIdx) (rs1 : RegIdx) (cnt : ShiftCount)
  /-- SRL, 41_logical_shift_sethi.md rule R186. -/
  | srl (rd : RegIdx) (rs1 : RegIdx) (cnt : ShiftCount)
  /-- SRA, 41_logical_shift_sethi.md rule R187. -/
  | sra (rd : RegIdx) (rs1 : RegIdx) (cnt : ShiftCount)
  /-- LDSB, 42_load_store.md rule R202. -/
  | ldsb (rd : RegIdx) (rs1 : RegIdx) (op2 : Operand2)
  /-- LDUB, 42_load_store.md rule R203. -/
  | ldub (rd : RegIdx) (rs1 : RegIdx) (op2 : Operand2)
  /-- LDSH, 42_load_store.md rule R204. -/
  | ldsh (rd : RegIdx) (rs1 : RegIdx) (op2 : Operand2)
  /-- LDUH, 42_load_store.md rule R205. -/
  | lduh (rd : RegIdx) (rs1 : RegIdx) (op2 : Operand2)
  /-- LD, 42_load_store.md rule R206. -/
  | ld (rd : RegIdx) (rs1 : RegIdx) (op2 : Operand2)
  /-- LDD, 42_load_store.md rule R207. -/
  | ldd (rd : RegIdx) (rs1 : RegIdx) (op2 : Operand2)
  /-- STB, 42_load_store.md rule R210. -/
  | stb (rd : RegIdx) (rs1 : RegIdx) (op2 : Operand2)
  /-- STH, 42_load_store.md rule R211. -/
  | sth (rd : RegIdx) (rs1 : RegIdx) (op2 : Operand2)
  /-- ST, 42_load_store.md rule R212. -/
  | st (rd : RegIdx) (rs1 : RegIdx) (op2 : Operand2)
  /-- STD, 42_load_store.md rule R213. -/
  | std (rd : RegIdx) (rs1 : RegIdx) (op2 : Operand2)
  /-- LDSTUB, 42_load_store.md rule R218. -/
  | ldstub (rd : RegIdx) (rs1 : RegIdx) (op2 : Operand2)
  /-- SWAP, 42_load_store.md rule R219. -/
  | swap (rd : RegIdx) (rs1 : RegIdx) (op2 : Operand2)
  /-- JMPL, 44_subroutine.md rule R264. -/
  | jmpl (rd : RegIdx) (rs1 : RegIdx) (op2 : Operand2)
  /-- RETT, 45_trap_instructions.md rule R298. -/
  | rett (rs1 : RegIdx) (op2 : Operand2)
  /-- TA, 45_trap_instructions.md rule R282. -/
  | ta (rs1 : RegIdx) (num : TrapNumber)
  /-- TN, 45_trap_instructions.md rule R283. -/
  | tn (rs1 : RegIdx) (num : TrapNumber)
  /-- TNE, 45_trap_instructions.md rule R284. -/
  | tne (rs1 : RegIdx) (num : TrapNumber)
  /-- TE, 45_trap_instructions.md rule R285. -/
  | te (rs1 : RegIdx) (num : TrapNumber)
  /-- TG, 45_trap_instructions.md rule R286. -/
  | tg (rs1 : RegIdx) (num : TrapNumber)
  /-- TLE, 45_trap_instructions.md rule R287. -/
  | tle (rs1 : RegIdx) (num : TrapNumber)
  /-- TGE, 45_trap_instructions.md rule R288. -/
  | tge (rs1 : RegIdx) (num : TrapNumber)
  /-- TL, 45_trap_instructions.md rule R289. -/
  | tl (rs1 : RegIdx) (num : TrapNumber)
  /-- TGU, 45_trap_instructions.md rule R290. -/
  | tgu (rs1 : RegIdx) (num : TrapNumber)
  /-- TLEU, 45_trap_instructions.md rule R291. -/
  | tleu (rs1 : RegIdx) (num : TrapNumber)
  /-- TCC, 45_trap_instructions.md rule R292. -/
  | tcc (rs1 : RegIdx) (num : TrapNumber)
  /-- TCS, 45_trap_instructions.md rule R293. -/
  | tcs (rs1 : RegIdx) (num : TrapNumber)
  /-- TPOS, 45_trap_instructions.md rule R294. -/
  | tpos (rs1 : RegIdx) (num : TrapNumber)
  /-- TNEG, 45_trap_instructions.md rule R295. -/
  | tneg (rs1 : RegIdx) (num : TrapNumber)
  /-- TVC, 45_trap_instructions.md rule R296. -/
  | tvc (rs1 : RegIdx) (num : TrapNumber)
  /-- TVS, 45_trap_instructions.md rule R297. -/
  | tvs (rs1 : RegIdx) (num : TrapNumber)
  /-- SAVE, 44_subroutine.md rule R268. -/
  | save (rd : RegIdx) (rs1 : RegIdx) (op2 : Operand2)
  /-- RESTORE, 44_subroutine.md rule R269. -/
  | restore (rd : RegIdx) (rs1 : RegIdx) (op2 : Operand2)
  /-- RDPSR, 46_state_register.md rule R301. -/
  | rdpsr (rd : RegIdx)
  /-- RDWIM, 46_state_register.md rule R302. -/
  | rdwim (rd : RegIdx)
  /-- RDTBR, 46_state_register.md rule R303. -/
  | rdtbr (rd : RegIdx)
  /-- WRPSR, 46_state_register.md rule R304. -/
  | wrpsr (rs1 : RegIdx) (op2 : Operand2)
  /-- WRWIM, 46_state_register.md rule R305. -/
  | wrwim (rs1 : RegIdx) (op2 : Operand2)
  /-- WRTBR, 46_state_register.md rule R306. -/
  | wrtbr (rs1 : RegIdx) (op2 : Operand2)
  /-- RDY, 46_state_register.md rule R308. -/
  | rdy (rd : RegIdx)
  /-- RDASR, 46_state_register.md rule R309. -/
  | rdasr (rd : RegIdx) (asr : RegIdx)
  /-- WRY, 46_state_register.md rule R310. -/
  | wry (rs1 : RegIdx) (op2 : Operand2)
  /-- WRASR, 46_state_register.md rule R311. -/
  | wrasr (asr : RegIdx) (rs1 : RegIdx) (op2 : Operand2)
  deriving DecidableEq, Repr

end Sys2Proof
end

