-- ==== Sys2Proof/Machine/State.lean ====
section
/-! DEFINITION. The machine's state as plain data, the reasons a step can stop, and the state after reset
(10_state.md rules R20 to R44). -/

namespace Sys2Proof.Machine

/-- Memory: the bytes that differ from what an unlisted address reads as, by strictly rising address
(20_memory.md rule R60). -/
abbrev Memory := List Host.Cell

/-- The physical register file (10_state.md rule R25), with room for the largest machine: NWINDOWS windows use the
first 16 * NWINDOWS entries of W. -/
structure Regs where
  /-- G[0..7]; G[0] is hard-wired to zero by `Regs.read` and `Regs.write`. -/
  globals : Vector Word 8
  /-- W[0..16*NWINDOWS-1], the windowed registers. -/
  windowed : Vector Word 512
  deriving DecidableEq, Repr

/-- The integer condition codes icc (10_state.md rule R35). -/
structure Icc where
  n : Bool
  z : Bool
  v : Bool
  c : Bool
  deriving DecidableEq, Repr

/-- The writable fields of the Processor State Register (10_state.md rule R34). impl and ver are the parameters
PSR_IMPL and PSR_VER; EC, EF and bits 19:14 are hard-wired to 0: `Psr.toWord` supplies them. -/
structure Psr where
  /-- N, Z, V, C, bits 23:20. -/
  icc : Icc
  /-- PIL, bits 11:8. -/
  pil : BitVec 4
  /-- S, bit 7: supervisor mode. -/
  s : Bool
  /-- PS, bit 6: S at the most recent trap. -/
  ps : Bool
  /-- ET, bit 5: traps enabled. -/
  et : Bool
  /-- CWP, bits 4:0. -/
  cwp : BitVec 5
  deriving DecidableEq, Repr

/-- The Trap Base Register (10_state.md rule R38); bits 3:0 are hard-wired to 0. -/
structure Tbr where
  /-- TBA, bits 31:12. -/
  tba : BitVec 20
  /-- tt, bits 11:4. -/
  tt : BitVec 8
  deriving DecidableEq, Repr

/-- The fields of PSR a WRPSR altered: `changed` of 10_state.md rule R42. -/
structure PsrChanged where
  icc : Bool
  pil : Bool
  s : Bool
  ps : Bool
  et : Bool
  cwp : Bool
  deriving DecidableEq, Repr

/-- The delayed-write windows: `pending_wr` of 10_state.md rule R42, how many more executed instructions lie inside
the window of each register (70_reset_and_hazards.md rule R380). -/
structure Pending where
  psr : Fin 4
  wim : Fin 4
  tbr : Fin 4
  y : Fin 4
  /-- The PSR fields altered by the write that opened the PSR window. -/
  changed : PsrChanged
  /-- PIL before that write, for the interrupt test of rule R380's row "PSR, events". -/
  oldPil : BitVec 4
  deriving DecidableEq, Repr

/-- `dcti_prev` of 10_state.md rule R42: what the previous executed instruction was (43_branch.md rule R240). -/
inductive DctiPrev where
  | none | uncond | cond
  deriving DecidableEq, Repr

/-- What the environment supplies for one step. -/
structure Input where
  /-- IRL, the external interrupt request level (60_exceptions.md rule R340); 0 is no request. -/
  irl : BitVec 4
  /-- The bytes the DMA agent writes before the step (20_memory.md rules R62 and R73). -/
  dma : List (Word × Byte)
  /-- The bytes it writes during the step, between the two words of an LDD or STD (20_memory.md rule R67): see
  `State.dmaPending`. -/
  dmaBetween : List (Word × Byte)
  /-- Reset asserted (70_reset_and_hazards.md rule R370), with the memory the platform has then loaded. -/
  reset : Option (List (Word × Byte))
  deriving DecidableEq, Repr

/-- The whole machine: 10_state.md rules R20 and R42, and the model's own fields (`cfg`, `storedTo`, `inputs`,
`dmaPending`, `freeCount`). -/
structure State where
  /-- The parameters (00_scope.md rule R6); no step changes them. -/
  cfg : Config
  /-- The general registers. -/
  regs : Regs
  /-- PC, the address of the instruction being executed (10_state.md rule R31). -/
  pc : Word
  /-- nPC, the address of the next instruction if no trap occurs (10_state.md rule R32). -/
  npc : Word
  /-- PSR. -/
  psr : Psr
  /-- WIM, one bit per window (10_state.md rule R29). -/
  wim : Word
  /-- TBR. -/
  tbr : Tbr
  /-- Y (10_state.md rule R39). -/
  y : Word
  /-- Memory. -/
  mem : Memory
  /-- The addresses the program has stored to since the start of the run (20_memory.md rule R76), strictly rising. -/
  storedTo : List Nat
  /-- The delayed-write windows. -/
  pending : Pending
  /-- The delayed control transfer history. -/
  dctiPrev : DctiPrev
  /-- `error_mode` (60_exceptions.md rule R336). -/
  errorMode : Bool
  /-- The environment's inputs to the coming steps, the next one first; past its end the environment is idle. -/
  inputs : List Input
  /-- DMA writes of this step's input that are still to land: between the two words of an LDD or STD, which are atomic
  each but not as a pair (20_memory.md rule R67), else before the next step. Log entry 10. -/
  dmaPending : List (Word × Byte)
  /-- How many free values have been drawn (`Config.freeWord`). -/
  freeCount : Nat
  deriving DecidableEq, Repr

/-- Why the machine stops. -/
inductive Fault where
  /-- Raised by `step` in error mode when the environment has no further input: 60_exceptions.md rule R336 calls
  error mode a terminal stuck state. Safe: nothing is proved to happen after it. -/
  | errorMode
  deriving DecidableEq, Repr

/-- A register with a delayed-write window. -/
inductive DelayedReg where
  | psr | wim | tbr | y
  deriving DecidableEq, Repr

/-- Why the model gives a state no next state. Each is a refusal the spec itself states. -/
inductive Refusal where
  /-- The instruction has no meaning yet. Raised by `exec` alone; no arm raises it. Safe. -/
  | notModelled (mnemonic : String)
  /-- Raised by `step`: an instruction whose behaviour could depend on whether a write to that register has landed
  (70_reset_and_hazards.md rule R380(c)). Safe. -/
  | delayedWrite (r : DelayedReg)
  /-- Raised by `raise`: a synchronous trap or interrupt inside a delayed-write window that its entry depends on
  (70_reset_and_hazards.md rule R380(c), rows "PSR, events" and TBR). Safe. -/
  | trapInDelayedWrite (r : DelayedReg)
  /-- Raised by `step`: the interrupt test differs between the old and the new PIL (70_reset_and_hazards.md rule
  R380(c)). Safe. -/
  | interruptTestInDelayedWrite
  /-- Raised by `step`: a delayed control transfer in the delay slot of a conditional branch, "unpredictable"
  (43_branch.md rule R240). Safe. -/
  | dctiCouple
  /-- Raised by `step`: a fetch from a byte the program has stored to (20_memory.md rule R76). Safe. -/
  | fetchOfStoredByte
  /-- Raised by `step`: a nonzero reserved field under RESERVED_POLICY = refuse (30_encoding.md rule R115). Safe. -/
  | reservedField
  /-- Raised by `step`: an alternate-space load or store (30_encoding.md rule R120). Safe. -/
  | alternateSpace
  /-- Raised by `step`: FLUSH (30_encoding.md rule R121). Safe. -/
  | flush
  /-- Raised by `step` were a fetch to give other than four bytes; it never does. Safe. -/
  | notFourBytes
  deriving DecidableEq, Repr

/-- The outcome of an instruction or a step. -/
abbrev Result := Host.Outcome State Fault Refusal

/-- No delayed-write window open. -/
def Pending.closed : Pending where
  psr := 0
  wim := 0
  tbr := 0
  y := 0
  changed := ⟨false, false, false, false, false, false⟩
  oldPil := 0

/-- The machine right after reset (10_state.md rule R43, 70_reset_and_hazards.md rule R370): PC = 0, nPC = 4, S = 1,
ET = 0, the hidden state cleared, no memory loaded. Every register the spec leaves unspecified holds 0 (log entry 2),
the parameters are the defaults of 00_scope.md rule R6. -/
def State.reset : State where
  cfg := .specDefault
  regs := ⟨Vector.replicate 8 0, Vector.replicate 512 0⟩
  pc := 0
  npc := 4
  psr := ⟨⟨false, false, false, false⟩, 0, true, false, false, 0⟩
  wim := 0
  tbr := ⟨0, 0⟩
  y := 0
  mem := []
  storedTo := []
  pending := .closed
  dctiPrev := .none
  errorMode := false
  inputs := []
  dmaPending := []
  freeCount := 0

end Sys2Proof.Machine
end

