-- ==== Sys2Proof/Machine/Flags.lean ====
section
/-! DEFINITION. The condition-code computations and the sixteen conditions (10_state.md rule R35, 40_arithmetic.md rules
R131, R132 and R141, 41_logical_shift_sethi.md rule R183, 43_branch.md rule R231). -/

namespace Sys2Proof.Machine

/-- The carry as a number (00_scope.md rule R8). -/
def carryWord (c : Bool) : Word := if c then 1 else 0

/-- `add_flags` (40_arithmetic.md rule R131). -/
def addFlags (a b : Word) (cin : Bool) : Icc :=
  let total := a.toNat + b.toNat + cin.toNat
  let r := BitVec.ofNat 32 total
  { n := r.msb
    z := r == 0
    v := a.msb == b.msb && r.msb != a.msb
    c := decide (2 ^ 32 ≤ total) }

/-- `sub_flags` (40_arithmetic.md rule R132). -/
def subFlags (a b : Word) (bin : Bool) : Icc :=
  let diff : Int := (a.toNat : Int) - b.toNat - bin.toNat
  let r := BitVec.ofInt 32 diff
  { n := r.msb
    z := r == 0
    v := a.msb != b.msb && r.msb != a.msb
    c := decide (diff < 0) }

/-- `logic_flags` (41_logical_shift_sethi.md rule R183); the flags of a multiply have the same form
(40_arithmetic.md rules R149 and R151). -/
def logicFlags (r : Word) : Icc where
  n := r.msb
  z := r == 0
  v := false
  c := false

/-- The flags of a divide (40_arithmetic.md rules R153 and R155). -/
def divFlags (r : Word) (ovf : Bool) : Icc where
  n := r.msb
  z := r == 0
  v := ovf
  c := false

/-- `tag_bad` (40_arithmetic.md rule R141): a nonzero tag in either operand. -/
def tagBad (a b : Word) : Bool := a.extractLsb' 0 2 != 0 || b.extractLsb' 0 2 != 0

/-- The flags of a tagged add (40_arithmetic.md rules R141 and R142). -/
def taggedAddFlags (a b : Word) : Icc :=
  let f := addFlags a b false
  { f with v := f.v || tagBad a b }

/-- The flags of a tagged subtract (40_arithmetic.md rules R141 and R144). -/
def taggedSubFlags (a b : Word) : Icc :=
  let f := subFlags a b false
  { f with v := f.v || tagBad a b }

/-- `cond_true` (43_branch.md rule R231). -/
def condTrue (k : Cond) (f : Icc) : Bool :=
  match k with
  | .a => true
  | .n => false
  | .ne => !f.z
  | .e => f.z
  | .g => !(f.z || (f.n ^^ f.v))
  | .le => f.z || (f.n ^^ f.v)
  | .ge => !(f.n ^^ f.v)
  | .l => f.n ^^ f.v
  | .gu => !(f.c || f.z)
  | .leu => f.c || f.z
  | .cc => !f.c
  | .cs => f.c
  | .pos => !f.n
  | .neg => f.n
  | .vc => !f.v
  | .vs => f.v

end Sys2Proof.Machine
end

