-- ==== Sys2Proof/WellFormed.lean ====
section
/-! DEFINITION. Which terms of `Instr` are instructions of their own row. The operand fields have exactly the widths of
their encodings, so the only ill-formed terms are those whose word belongs to another row of the opcode table. -/

namespace Sys2Proof

/-- Checks a term against the rows that share its bits: `sethi 0, %r0` is the row NOP (41_logical_shift_sethi.md rule
R191), number 0 in the ASR field selects Y, not an ancillary register (10_state.md rule R40; 46_state_register.md rules
R309 and R311). An odd rd of LDD or STD is well-formed: it decodes, and raises illegal_instruction when executed
(42_load_store.md rule R209). -/
def Instr.wellFormed : Instr → Bool
  | .sethi rd imm22 => !(rd == 0 && imm22 == 0)
  | .rdasr _ asr => asr != 0
  | .wrasr asr _ _ => asr != 0
  | _ => true

end Sys2Proof
end

