-- ==== Sys2Proof/Decode.lean ====
section
/-! DEFINITION. Decoding a word (30_encoding.md rule R109) and, after it, encoding an instruction, both from the formats
of 30_encoding.md rules R91 to R96 and the maps of rules R104 to R107. The opcode map depends on SMUL_OP3 and the
treatment of a nonzero reserved field on RESERVED_POLICY, so both take the parameters. -/

namespace Sys2Proof

/-- Why a word is refused. -/
inductive Reject where
  /-- A nonzero reserved field under RESERVED_POLICY = refuse (30_encoding.md rule R115). Safe: the spec gives it no
  meaning. -/
  | reservedField
  /-- An alternate-space load or store (30_encoding.md rule R120: "refused"). Safe: "implementation dependent". -/
  | alternateSpace
  /-- FLUSH (30_encoding.md rule R121: "refused"). Safe. -/
  | flush
  /-- Fewer or more than four bytes: no instruction (30_encoding.md rule R90). -/
  | notFourBytes
  deriving DecidableEq, Repr

/-- What a word is. -/
inductive Decoded where
  /-- An instruction of the opcode table. -/
  | instr (i : Instr)
  /-- An unassigned op2 or op3: raises illegal_instruction (30_encoding.md rule R118). -/
  | illegal
  /-- A floating-point encoding: raises fp_disabled, the trap 30_encoding.md rule R119 offers. Log entry 5. -/
  | fpDisabled
  /-- A coprocessor encoding: raises cp_disabled, the trap 30_encoding.md rule R119 offers. Log entry 5. -/
  | cpDisabled
  /-- A word the model gives no meaning, refused by name. -/
  | rejected (r : Reject)
  deriving DecidableEq, Repr

/-! The fields (30_encoding.md rule R96). -/

/-- op, bits 31:30. -/
def opField (w : Word) : BitVec 2 := w.extractLsb' 30 2
/-- rd, bits 29:25. -/
def rdField (w : Word) : RegIdx := w.extractLsb' 25 5
/-- a, bit 29; bit 29 is reserved in Ticc. -/
def aField (w : Word) : BitVec 1 := w.extractLsb' 29 1
/-- cond, bits 28:25. -/
def condField (w : Word) : BitVec 4 := w.extractLsb' 25 4
/-- op2, bits 24:22. -/
def op2Field (w : Word) : BitVec 3 := w.extractLsb' 22 3
/-- imm22 and disp22, bits 21:0. -/
def imm22Field (w : Word) : BitVec 22 := w.extractLsb' 0 22
/-- disp30, bits 29:0. -/
def disp30Field (w : Word) : BitVec 30 := w.extractLsb' 0 30
/-- op3, bits 24:19. -/
def op3Field (w : Word) : BitVec 6 := w.extractLsb' 19 6
/-- rs1, bits 18:14. -/
def rs1Field (w : Word) : RegIdx := w.extractLsb' 14 5
/-- i, bit 13. -/
def iField (w : Word) : BitVec 1 := w.extractLsb' 13 1
/-- simm13, bits 12:0. -/
def simm13Field (w : Word) : BitVec 13 := w.extractLsb' 0 13
/-- asi, bits 12:5, a reserved field of every instruction in scope. -/
def asiField (w : Word) : BitVec 8 := w.extractLsb' 5 8
/-- rs2 and shcnt, bits 4:0. -/
def rs2Field (w : Word) : BitVec 5 := w.extractLsb' 0 5
/-- Bits 12:7, reserved in Ticc with i = 1. -/
def ticcHighField (w : Word) : BitVec 6 := w.extractLsb' 7 6
/-- imm7, bits 6:0. -/
def imm7Field (w : Word) : BitVec 7 := w.extractLsb' 0 7

/-- The reserved-field check (30_encoding.md rule R115): `ok` says that the field is zero. -/
def reservedCheck (cfg : Config) (ok : Bool) (i : Instr) : Decoded :=
  if ok || cfg.reservedPolicy == .ignore then .instr i else .rejected .reservedField

/-- Format 3 with operand 2 (30_encoding.md rule R93): bits 12:5 are reserved when i = 0. `ok` is the check of the
row's other reserved fields. -/
def withOperand2 (cfg : Config) (w : Word) (ok : Bool) (k : Operand2 → Instr) : Decoded :=
  if iField w = 1#1 then reservedCheck cfg ok (k (.imm (simm13Field w)))
  else reservedCheck cfg (ok && asiField w == 0) (k (.reg (rs2Field w)))

/-- An immediate or register shift (30_encoding.md rules R102 and R115): bits 12:5 are reserved in both forms. -/
def withShiftCount (cfg : Config) (w : Word) (k : ShiftCount → Instr) : Decoded :=
  reservedCheck cfg (asiField w == 0)
    (k (if iField w = 1#1 then .imm (rs2Field w) else .reg (rs2Field w)))

/-- The operands of Ticc (30_encoding.md rule R94): bit 29 is reserved, and bits 12:5 (i = 0) or 12:7 (i = 1). -/
def withTrapNumber (cfg : Config) (w : Word) (k : TrapNumber → Instr) : Decoded :=
  if iField w = 1#1 then
    reservedCheck cfg (aField w == 0 && ticcHighField w == 0) (k (.imm (imm7Field w)))
  else reservedCheck cfg (aField w == 0 && asiField w == 0) (k (.reg (rs2Field w)))

/-- The branch a cond field names (43_branch.md rule R231). -/
def biccOfCond (c : BitVec 4) (a : Bool) (disp22 : BitVec 22) : Instr :=
  match c with
  | 0b0000#4 => .bn a disp22
  | 0b0001#4 => .be a disp22
  | 0b0010#4 => .ble a disp22
  | 0b0011#4 => .bl a disp22
  | 0b0100#4 => .bleu a disp22
  | 0b0101#4 => .bcs a disp22
  | 0b0110#4 => .bneg a disp22
  | 0b0111#4 => .bvs a disp22
  | 0b1000#4 => .ba a disp22
  | 0b1001#4 => .bne a disp22
  | 0b1010#4 => .bg a disp22
  | 0b1011#4 => .bge a disp22
  | 0b1100#4 => .bgu a disp22
  | 0b1101#4 => .bcc a disp22
  | 0b1110#4 => .bpos a disp22
  | _ => .bvc a disp22

/-- The trap instruction a cond field names (43_branch.md rule R231, 45_trap_instructions.md rules R282 to R297). -/
def ticcOfCond (c : BitVec 4) (rs1 : RegIdx) (num : TrapNumber) : Instr :=
  match c with
  | 0b0000#4 => .tn rs1 num
  | 0b0001#4 => .te rs1 num
  | 0b0010#4 => .tle rs1 num
  | 0b0011#4 => .tl rs1 num
  | 0b0100#4 => .tleu rs1 num
  | 0b0101#4 => .tcs rs1 num
  | 0b0110#4 => .tneg rs1 num
  | 0b0111#4 => .tvs rs1 num
  | 0b1000#4 => .ta rs1 num
  | 0b1001#4 => .tne rs1 num
  | 0b1010#4 => .tg rs1 num
  | 0b1011#4 => .tge rs1 num
  | 0b1100#4 => .tgu rs1 num
  | 0b1101#4 => .tcc rs1 num
  | 0b1110#4 => .tpos rs1 num
  | _ => .tvc rs1 num

/-- op = 00, selected by op2 (30_encoding.md rule R105). The word 0x01000000 is the row NOP (41_logical_shift_sethi.md
rule R191). -/
def decodeFormat2 (w : Word) : Decoded :=
  match op2Field w with
  | 0b000#3 => .instr (.unimp (rdField w) (imm22Field w))
  | 0b010#3 => .instr (biccOfCond (condField w) (aField w == 1#1) (imm22Field w))
  | 0b100#3 =>
    if rdField w = 0 ∧ imm22Field w = 0 then .instr .nop
    else .instr (.sethi (rdField w) (imm22Field w))
  | 0b110#3 => .fpDisabled
  | 0b111#3 => .cpDisabled
  | _ => .illegal

/-- op = 10, selected by op3 (30_encoding.md rule R106). -/
def decodeArith (cfg : Config) (w : Word) : Decoded :=
  let rd := rdField w
  let rs1 := rs1Field w
  match op3Field w with
  | 0x00#6 => withOperand2 cfg w true (.add rd rs1)
  | 0x01#6 => withOperand2 cfg w true (.and rd rs1)
  | 0x02#6 => withOperand2 cfg w true (.or rd rs1)
  | 0x03#6 => withOperand2 cfg w true (.xor rd rs1)
  | 0x04#6 => withOperand2 cfg w true (.sub rd rs1)
  | 0x05#6 => withOperand2 cfg w true (.andn rd rs1)
  | 0x06#6 => withOperand2 cfg w true (.orn rd rs1)
  | 0x07#6 => withOperand2 cfg w true (.xnor rd rs1)
  | 0x08#6 => withOperand2 cfg w true (.addx rd rs1)
  | 0x09#6 => if cfg.smulOp3 = .source then withOperand2 cfg w true (.smul rd rs1) else .illegal
  | 0x0a#6 => withOperand2 cfg w true (.umul rd rs1)
  | 0x0b#6 => if cfg.smulOp3 = .published then withOperand2 cfg w true (.smul rd rs1) else .illegal
  | 0x0c#6 => withOperand2 cfg w true (.subx rd rs1)
  | 0x0e#6 => withOperand2 cfg w true (.udiv rd rs1)
  | 0x0f#6 => withOperand2 cfg w true (.sdiv rd rs1)
  | 0x10#6 => withOperand2 cfg w true (.addcc rd rs1)
  | 0x11#6 => withOperand2 cfg w true (.andcc rd rs1)
  | 0x12#6 => withOperand2 cfg w true (.orcc rd rs1)
  | 0x13#6 => withOperand2 cfg w true (.xorcc rd rs1)
  | 0x14#6 => withOperand2 cfg w true (.subcc rd rs1)
  | 0x15#6 => withOperand2 cfg w true (.andncc rd rs1)
  | 0x16#6 => withOperand2 cfg w true (.orncc rd rs1)
  | 0x17#6 => withOperand2 cfg w true (.xnorcc rd rs1)
  | 0x18#6 => withOperand2 cfg w true (.addxcc rd rs1)
  | 0x19#6 => if cfg.smulOp3 = .source then withOperand2 cfg w true (.smulcc rd rs1) else .illegal
  | 0x1a#6 => withOperand2 cfg w true (.umulcc rd rs1)
  | 0x1b#6 => if cfg.smulOp3 = .published then withOperand2 cfg w true (.smulcc rd rs1) else .illegal
  | 0x1c#6 => withOperand2 cfg w true (.subxcc rd rs1)
  | 0x1e#6 => withOperand2 cfg w true (.udivcc rd rs1)
  | 0x1f#6 => withOperand2 cfg w true (.sdivcc rd rs1)
  | 0x20#6 => withOperand2 cfg w true (.taddcc rd rs1)
  | 0x21#6 => withOperand2 cfg w true (.tsubcc rd rs1)
  | 0x22#6 => withOperand2 cfg w true (.taddcctv rd rs1)
  | 0x23#6 => withOperand2 cfg w true (.tsubcctv rd rs1)
  | 0x24#6 => withOperand2 cfg w true (.mulscc rd rs1)
  | 0x25#6 => withShiftCount cfg w (.sll rd rs1)
  | 0x26#6 => withShiftCount cfg w (.srl rd rs1)
  | 0x27#6 => withShiftCount cfg w (.sra rd rs1)
  | 0x28#6 => if rs1 = 0 then .instr (.rdy rd) else .instr (.rdasr rd rs1)
  | 0x29#6 => .instr (.rdpsr rd)
  | 0x2a#6 => .instr (.rdwim rd)
  | 0x2b#6 => .instr (.rdtbr rd)
  | 0x30#6 => if rd = 0 then withOperand2 cfg w true (.wry rs1) else withOperand2 cfg w true (.wrasr rd rs1)
  | 0x31#6 => withOperand2 cfg w (rd == 0) (.wrpsr rs1)
  | 0x32#6 => withOperand2 cfg w (rd == 0) (.wrwim rs1)
  | 0x33#6 => withOperand2 cfg w (rd == 0) (.wrtbr rs1)
  | 0x34#6 => .fpDisabled
  | 0x35#6 => .fpDisabled
  | 0x36#6 => .cpDisabled
  | 0x37#6 => .cpDisabled
  | 0x38#6 => withOperand2 cfg w true (.jmpl rd rs1)
  | 0x39#6 => withOperand2 cfg w (rd == 0) (.rett rs1)
  | 0x3a#6 => withTrapNumber cfg w (ticcOfCond (condField w) rs1)
  | 0x3b#6 => .rejected .flush
  | 0x3c#6 => withOperand2 cfg w true (.save rd rs1)
  | 0x3d#6 => withOperand2 cfg w true (.restore rd rs1)
  | _ => .illegal

/-- op = 11, selected by op3 (30_encoding.md rule R107). -/
def decodeMemory (cfg : Config) (w : Word) : Decoded :=
  let rd := rdField w
  let rs1 := rs1Field w
  match op3Field w with
  | 0x00#6 => withOperand2 cfg w true (.ld rd rs1)
  | 0x01#6 => withOperand2 cfg w true (.ldub rd rs1)
  | 0x02#6 => withOperand2 cfg w true (.lduh rd rs1)
  | 0x03#6 => withOperand2 cfg w true (.ldd rd rs1)
  | 0x04#6 => withOperand2 cfg w true (.st rd rs1)
  | 0x05#6 => withOperand2 cfg w true (.stb rd rs1)
  | 0x06#6 => withOperand2 cfg w true (.sth rd rs1)
  | 0x07#6 => withOperand2 cfg w true (.std rd rs1)
  | 0x09#6 => withOperand2 cfg w true (.ldsb rd rs1)
  | 0x0a#6 => withOperand2 cfg w true (.ldsh rd rs1)
  | 0x0d#6 => withOperand2 cfg w true (.ldstub rd rs1)
  | 0x0f#6 => withOperand2 cfg w true (.swap rd rs1)
  | 0x10#6 => .rejected .alternateSpace
  | 0x11#6 => .rejected .alternateSpace
  | 0x12#6 => .rejected .alternateSpace
  | 0x13#6 => .rejected .alternateSpace
  | 0x14#6 => .rejected .alternateSpace
  | 0x15#6 => .rejected .alternateSpace
  | 0x16#6 => .rejected .alternateSpace
  | 0x17#6 => .rejected .alternateSpace
  | 0x19#6 => .rejected .alternateSpace
  | 0x1a#6 => .rejected .alternateSpace
  | 0x1d#6 => .rejected .alternateSpace
  | 0x1f#6 => .rejected .alternateSpace
  | 0x20#6 => .fpDisabled
  | 0x21#6 => .fpDisabled
  | 0x23#6 => .fpDisabled
  | 0x24#6 => .fpDisabled
  | 0x25#6 => .fpDisabled
  | 0x26#6 => .fpDisabled
  | 0x27#6 => .fpDisabled
  | 0x30#6 => .cpDisabled
  | 0x31#6 => .cpDisabled
  | 0x33#6 => .cpDisabled
  | 0x34#6 => .cpDisabled
  | 0x35#6 => .cpDisabled
  | 0x36#6 => .cpDisabled
  | 0x37#6 => .cpDisabled
  | _ => .illegal

/-- The decode procedure of 30_encoding.md rule R109: total, every word falls in exactly one row. -/
def decode (cfg : Config) (w : Word) : Decoded :=
  match opField w with
  | 0b00#2 => decodeFormat2 w
  | 0b01#2 => .instr (.call (disp30Field w))
  | 0b10#2 => decodeArith cfg w
  | _ => decodeMemory cfg w

/-- The word of four bytes, the first at the lowest address: big-endian (20_memory.md rule R63). -/
def wordOfBytes (b0 b1 b2 b3 : Byte) : Word := b0 ++ b1 ++ b2 ++ b3

/-- The bytes of a word, the one at the lowest address first (20_memory.md rule R63). -/
def bytesOfWord (w : Word) : List Byte :=
  [w.extractLsb' 24 8, w.extractLsb' 16 8, w.extractLsb' 8 8, w.extractLsb' 0 8]

/-- Decoding of any bytes: an instruction is four of them (30_encoding.md rule R90). -/
def decodeBytes (cfg : Config) : List Byte → Decoded
  | [b0, b1, b2, b3] => decode cfg (wordOfBytes b0 b1 b2 b3)
  | _ => .rejected .notFourBytes

/-- The instruction of a decoding, if it is one. -/
def Decoded.instr? : Decoded → Option Instr
  | .instr i => some i
  | _ => none

/-- The instruction the decoder reads, with the default parameters, from an instruction whose bits are w, of which the
table gives nbits: an instruction is one 32-bit word, laid out big-endian. -/
def decodeTableWord (nbits w : Nat) : Option Instr :=
  (decodeBytes .specDefault (bytesOfWord (BitVec.ofNat 32 (w % 2 ^ nbits)))).instr?

/-! Encoding, from the same tables. -/

/-- Format 1 (30_encoding.md rule R91). -/
def encodeCall (disp30 : BitVec 30) : Word := 0b01#2 ++ disp30

/-- Format 2, SETHI form (30_encoding.md rule R92). -/
def encodeFormat2 (rd : BitVec 5) (op2 : BitVec 3) (imm22 : BitVec 22) : Word := 0b00#2 ++ rd ++ op2 ++ imm22

/-- Format 2, branch form (30_encoding.md rule R92): a and cond stand where SETHI has rd. -/
def encodeBicc (cond : BitVec 4) (a : Bool) (disp22 : BitVec 22) : Word :=
  encodeFormat2 (BitVec.ofBool a ++ cond) 0b010#3 disp22

/-- Format 3 (30_encoding.md rule R93). -/
def encodeFormat3 (op : BitVec 2) (rd : BitVec 5) (op3 : BitVec 6) (rs1 : BitVec 5) (i : BitVec 1)
    (low : BitVec 13) : Word := op ++ rd ++ op3 ++ rs1 ++ i ++ low

/-- The bit i of operand 2. -/
def Operand2.iBit : Operand2 → BitVec 1
  | .reg _ => 0
  | .imm _ => 1

/-- Bits 12:0 of operand 2: reserved zeros and rs2, or simm13. -/
def Operand2.low : Operand2 → BitVec 13
  | .reg rs2 => 0#8 ++ rs2
  | .imm simm13 => simm13

/-- The bit i of a shift count. -/
def ShiftCount.iBit : ShiftCount → BitVec 1
  | .reg _ => 0
  | .imm _ => 1

/-- Bits 12:0 of a shift count: reserved zeros and rs2 or shcnt. -/
def ShiftCount.low : ShiftCount → BitVec 13
  | .reg rs2 => 0#8 ++ rs2
  | .imm shcnt => 0#8 ++ shcnt

/-- The bit i of a Ticc operand. -/
def TrapNumber.iBit : TrapNumber → BitVec 1
  | .reg _ => 0
  | .imm _ => 1

/-- Bits 12:0 of a Ticc operand: reserved zeros and rs2 or imm7. -/
def TrapNumber.low : TrapNumber → BitVec 13
  | .reg rs2 => 0#8 ++ rs2
  | .imm imm7 => 0#6 ++ imm7

/-- op = 10 with operand 2. -/
def encodeArith (op3 : BitVec 6) (rd rs1 : RegIdx) (op2 : Operand2) : Word :=
  encodeFormat3 0b10#2 rd op3 rs1 op2.iBit op2.low

/-- op = 11 with operand 2. -/
def encodeMemory (op3 : BitVec 6) (rd rs1 : RegIdx) (op2 : Operand2) : Word :=
  encodeFormat3 0b11#2 rd op3 rs1 op2.iBit op2.low

/-- A shift. -/
def encodeShift (op3 : BitVec 6) (rd rs1 : RegIdx) (cnt : ShiftCount) : Word :=
  encodeFormat3 0b10#2 rd op3 rs1 cnt.iBit cnt.low

/-- Ticc (30_encoding.md rule R94): bit 29 is zero and cond stands in bits 28:25. -/
def encodeTicc (cond : BitVec 4) (rs1 : RegIdx) (num : TrapNumber) : Word :=
  encodeFormat3 0b10#2 (0#1 ++ cond) 0b111010#6 rs1 num.iBit num.low

/-- A read of a state register (30_encoding.md rule R95), its unused bits zero. -/
def encodeRead (op3 : BitVec 6) (rd rs1 : RegIdx) : Word := encodeFormat3 0b10#2 rd op3 rs1 0 0

/-- op3 of SMUL (40_arithmetic.md rule R150). -/
def SmulOp3.code : SmulOp3 → BitVec 6
  | .source => 0b001001#6
  | .published => 0b001011#6

/-- op3 of SMULcc: SMUL_OP3 with bit 4 set (40_arithmetic.md rule R151). -/
def SmulOp3.codeCc : SmulOp3 → BitVec 6
  | .source => 0b011001#6
  | .published => 0b011011#6

/-- The word of an instruction, its reserved and unused fields zero. -/
def encode (cfg : Config) : Instr → Word
  | .unimp reserved const22 => encodeFormat2 reserved 0b000#3 const22
  | .nop => encodeFormat2 0 0b100#3 0
  | .sethi rd imm22 => encodeFormat2 rd 0b100#3 imm22
  | .ba a disp22 => encodeBicc 0b1000#4 a disp22
  | .bn a disp22 => encodeBicc 0b0000#4 a disp22
  | .bne a disp22 => encodeBicc 0b1001#4 a disp22
  | .be a disp22 => encodeBicc 0b0001#4 a disp22
  | .bg a disp22 => encodeBicc 0b1010#4 a disp22
  | .ble a disp22 => encodeBicc 0b0010#4 a disp22
  | .bge a disp22 => encodeBicc 0b1011#4 a disp22
  | .bl a disp22 => encodeBicc 0b0011#4 a disp22
  | .bgu a disp22 => encodeBicc 0b1100#4 a disp22
  | .bleu a disp22 => encodeBicc 0b0100#4 a disp22
  | .bcc a disp22 => encodeBicc 0b1101#4 a disp22
  | .bcs a disp22 => encodeBicc 0b0101#4 a disp22
  | .bpos a disp22 => encodeBicc 0b1110#4 a disp22
  | .bneg a disp22 => encodeBicc 0b0110#4 a disp22
  | .bvc a disp22 => encodeBicc 0b1111#4 a disp22
  | .bvs a disp22 => encodeBicc 0b0111#4 a disp22
  | .call disp30 => encodeCall disp30
  | .add rd rs1 op2 => encodeArith 0b000000#6 rd rs1 op2
  | .addcc rd rs1 op2 => encodeArith 0b010000#6 rd rs1 op2
  | .addx rd rs1 op2 => encodeArith 0b001000#6 rd rs1 op2
  | .addxcc rd rs1 op2 => encodeArith 0b011000#6 rd rs1 op2
  | .sub rd rs1 op2 => encodeArith 0b000100#6 rd rs1 op2
  | .subcc rd rs1 op2 => encodeArith 0b010100#6 rd rs1 op2
  | .subx rd rs1 op2 => encodeArith 0b001100#6 rd rs1 op2
  | .subxcc rd rs1 op2 => encodeArith 0b011100#6 rd rs1 op2
  | .taddcc rd rs1 op2 => encodeArith 0b100000#6 rd rs1 op2
  | .taddcctv rd rs1 op2 => encodeArith 0b100010#6 rd rs1 op2
  | .tsubcc rd rs1 op2 => encodeArith 0b100001#6 rd rs1 op2
  | .tsubcctv rd rs1 op2 => encodeArith 0b100011#6 rd rs1 op2
  | .mulscc rd rs1 op2 => encodeArith 0b100100#6 rd rs1 op2
  | .umul rd rs1 op2 => encodeArith 0b001010#6 rd rs1 op2
  | .umulcc rd rs1 op2 => encodeArith 0b011010#6 rd rs1 op2
  | .smul rd rs1 op2 => encodeArith cfg.smulOp3.code rd rs1 op2
  | .smulcc rd rs1 op2 => encodeArith cfg.smulOp3.codeCc rd rs1 op2
  | .udiv rd rs1 op2 => encodeArith 0b001110#6 rd rs1 op2
  | .udivcc rd rs1 op2 => encodeArith 0b011110#6 rd rs1 op2
  | .sdiv rd rs1 op2 => encodeArith 0b001111#6 rd rs1 op2
  | .sdivcc rd rs1 op2 => encodeArith 0b011111#6 rd rs1 op2
  | .and rd rs1 op2 => encodeArith 0b000001#6 rd rs1 op2
  | .andcc rd rs1 op2 => encodeArith 0b010001#6 rd rs1 op2
  | .or rd rs1 op2 => encodeArith 0b000010#6 rd rs1 op2
  | .orcc rd rs1 op2 => encodeArith 0b010010#6 rd rs1 op2
  | .xor rd rs1 op2 => encodeArith 0b000011#6 rd rs1 op2
  | .xorcc rd rs1 op2 => encodeArith 0b010011#6 rd rs1 op2
  | .andn rd rs1 op2 => encodeArith 0b000101#6 rd rs1 op2
  | .andncc rd rs1 op2 => encodeArith 0b010101#6 rd rs1 op2
  | .orn rd rs1 op2 => encodeArith 0b000110#6 rd rs1 op2
  | .orncc rd rs1 op2 => encodeArith 0b010110#6 rd rs1 op2
  | .xnor rd rs1 op2 => encodeArith 0b000111#6 rd rs1 op2
  | .xnorcc rd rs1 op2 => encodeArith 0b010111#6 rd rs1 op2
  | .sll rd rs1 cnt => encodeShift 0b100101#6 rd rs1 cnt
  | .srl rd rs1 cnt => encodeShift 0b100110#6 rd rs1 cnt
  | .sra rd rs1 cnt => encodeShift 0b100111#6 rd rs1 cnt
  | .ldsb rd rs1 op2 => encodeMemory 0b001001#6 rd rs1 op2
  | .ldub rd rs1 op2 => encodeMemory 0b000001#6 rd rs1 op2
  | .ldsh rd rs1 op2 => encodeMemory 0b001010#6 rd rs1 op2
  | .lduh rd rs1 op2 => encodeMemory 0b000010#6 rd rs1 op2
  | .ld rd rs1 op2 => encodeMemory 0b000000#6 rd rs1 op2
  | .ldd rd rs1 op2 => encodeMemory 0b000011#6 rd rs1 op2
  | .stb rd rs1 op2 => encodeMemory 0b000101#6 rd rs1 op2
  | .sth rd rs1 op2 => encodeMemory 0b000110#6 rd rs1 op2
  | .st rd rs1 op2 => encodeMemory 0b000100#6 rd rs1 op2
  | .std rd rs1 op2 => encodeMemory 0b000111#6 rd rs1 op2
  | .ldstub rd rs1 op2 => encodeMemory 0b001101#6 rd rs1 op2
  | .swap rd rs1 op2 => encodeMemory 0b001111#6 rd rs1 op2
  | .jmpl rd rs1 op2 => encodeArith 0b111000#6 rd rs1 op2
  | .rett rs1 op2 => encodeArith 0b111001#6 0 rs1 op2
  | .ta rs1 num => encodeTicc 0b1000#4 rs1 num
  | .tn rs1 num => encodeTicc 0b0000#4 rs1 num
  | .tne rs1 num => encodeTicc 0b1001#4 rs1 num
  | .te rs1 num => encodeTicc 0b0001#4 rs1 num
  | .tg rs1 num => encodeTicc 0b1010#4 rs1 num
  | .tle rs1 num => encodeTicc 0b0010#4 rs1 num
  | .tge rs1 num => encodeTicc 0b1011#4 rs1 num
  | .tl rs1 num => encodeTicc 0b0011#4 rs1 num
  | .tgu rs1 num => encodeTicc 0b1100#4 rs1 num
  | .tleu rs1 num => encodeTicc 0b0100#4 rs1 num
  | .tcc rs1 num => encodeTicc 0b1101#4 rs1 num
  | .tcs rs1 num => encodeTicc 0b0101#4 rs1 num
  | .tpos rs1 num => encodeTicc 0b1110#4 rs1 num
  | .tneg rs1 num => encodeTicc 0b0110#4 rs1 num
  | .tvc rs1 num => encodeTicc 0b1111#4 rs1 num
  | .tvs rs1 num => encodeTicc 0b0111#4 rs1 num
  | .save rd rs1 op2 => encodeArith 0b111100#6 rd rs1 op2
  | .restore rd rs1 op2 => encodeArith 0b111101#6 rd rs1 op2
  | .rdpsr rd => encodeRead 0b101001#6 rd 0
  | .rdwim rd => encodeRead 0b101010#6 rd 0
  | .rdtbr rd => encodeRead 0b101011#6 rd 0
  | .wrpsr rs1 op2 => encodeArith 0b110001#6 0 rs1 op2
  | .wrwim rs1 op2 => encodeArith 0b110010#6 0 rs1 op2
  | .wrtbr rs1 op2 => encodeArith 0b110011#6 0 rs1 op2
  | .rdy rd => encodeRead 0b101000#6 rd 0
  | .rdasr rd asr => encodeRead 0b101000#6 rd asr
  | .wry rs1 op2 => encodeArith 0b110000#6 0 rs1 op2
  | .wrasr asr rs1 op2 => encodeArith 0b110000#6 asr rs1 op2

end Sys2Proof
end

