-- ==== Sys2Proof/Machine/Traps.lean ====
section
/-! DEFINITION. The table of traps (60_exceptions.md rule R322): names, trap type numbers and priorities. Reset, which
writes no tt, is `State.resetEntry`. -/

namespace Sys2Proof.Machine

/-- The traps that are not reset, under the names of 60_exceptions.md rule R322. -/
inductive Trap where
  | instructionAccessException
  | privilegedInstruction
  | illegalInstruction
  | fpDisabled
  | cpDisabled
  | windowOverflow
  | windowUnderflow
  | memAddressNotAligned
  | dataAccessException
  | tagOverflow
  | divisionByZero
  /-- Ticc with the low seven bits n of its operand sum. -/
  | trapInstruction (n : BitVec 7)
  /-- An interrupt of level L. -/
  | interruptLevel (level : BitVec 4)
  deriving DecidableEq, Repr

/-- The trap type number tt (60_exceptions.md rule R322): 0x80 + n for Ticc, 0x10 + L for an interrupt. -/
def Trap.tt : Trap → BitVec 8
  | .instructionAccessException => 0x01
  | .privilegedInstruction => 0x03
  | .illegalInstruction => 0x02
  | .fpDisabled => 0x04
  | .cpDisabled => 0x24
  | .windowOverflow => 0x05
  | .windowUnderflow => 0x06
  | .memAddressNotAligned => 0x07
  | .dataAccessException => 0x09
  | .tagOverflow => 0x0A
  | .divisionByZero => 0x2A
  | .trapInstruction n => 1#1 ++ n
  | .interruptLevel level => 1#4 ++ level

/-- The priority of a trap, 1 being the highest (60_exceptions.md rules R322 and R341). -/
def Trap.priority : Trap → Nat
  | .instructionAccessException => 5
  | .privilegedInstruction => 6
  | .illegalInstruction => 7
  | .fpDisabled => 8
  | .cpDisabled => 8
  | .windowOverflow => 9
  | .windowUnderflow => 9
  | .memAddressNotAligned => 10
  | .dataAccessException => 13
  | .tagOverflow => 14
  | .divisionByZero => 15
  | .trapInstruction _ => 16
  | .interruptLevel level => 32 - level.toNat

end Sys2Proof.Machine
end

