-- ==== Sys2Proof/Machine/Ops.lean ====
section
/-! DEFINITION. The named operations every meaning is written with: registers and windows, memory, the state registers
as words, the ways an instruction completes, taking a trap and returning from one. -/

namespace Sys2Proof.Machine

/-! ## Registers and windows (10_state.md rules R21 to R26) -/

theorem NWindows.toNat_pos (n : NWindows) : 0 < n.toNat := by cases n <;> decide

theorem NWindows.toNat_le (n : NWindows) : n.toNat ≤ 32 := by cases n <;> decide

/-- A physical register. -/
inductive PhysReg where
  | global (k : Fin 8)
  | windowed (k : Fin 512)
  deriving DecidableEq, Repr

/-- `phys(w, i)` (10_state.md rule R25). The three window clauses of the rule are the one index 16*w + (i - 8). -/
def physReg (n : NWindows) (w : BitVec 5) (i : RegIdx) : PhysReg :=
  if h : i.toNat < 8 then .global ⟨i.toNat, h⟩
  else .windowed ⟨(16 * w.toNat + (i.toNat - 8)) % (16 * n.toNat),
    Nat.lt_of_lt_of_le (Nat.mod_lt _ (by have := NWindows.toNat_pos n; omega))
      (by have := NWindows.toNat_le n; omega)⟩

/-- A read of the register file; G[0] reads zero (10_state.md rule R22). -/
def Regs.read (r : Regs) : PhysReg → Word
  | .global k => if k = 0 then 0 else r.globals[k.val]
  | .windowed k => r.windowed[k.val]

/-- A write of the register file; a write to G[0] is discarded (10_state.md rule R22). -/
def Regs.write (r : Regs) (p : PhysReg) (v : Word) : Regs :=
  match p with
  | .global k => if k = 0 then r else { r with globals := r.globals.set k.val v }
  | .windowed k => { r with windowed := r.windowed.set k.val v }

/-- `x@w[i]` (00_scope.md rule R9). -/
def State.readRegAt (s : State) (w : BitVec 5) (i : RegIdx) : Word :=
  s.regs.read (physReg s.cfg.nwindows w i)

/-- `x@w[i] <- v` (00_scope.md rule R9). -/
def State.writeRegAt (s : State) (w : BitVec 5) (i : RegIdx) (v : Word) : State :=
  { s with regs := s.regs.write (physReg s.cfg.nwindows w i) v }

/-- `x[i]`, through the current window (10_state.md rule R25). -/
def State.readReg (s : State) (i : RegIdx) : Word := s.readRegAt s.psr.cwp i

/-- `x[i] <- v`, through the current window. -/
def State.writeReg (s : State) (i : RegIdx) (v : Word) : State := s.writeRegAt s.psr.cwp i v

/-- (w - 1) mod NWINDOWS (10_state.md rule R26). -/
def prevWindow (n : NWindows) (w : BitVec 5) : BitVec 5 :=
  BitVec.ofNat 5 ((w.toNat + n.toNat - 1) % n.toNat)

/-- (w + 1) mod NWINDOWS (10_state.md rule R26). -/
def nextWindow (n : NWindows) (w : BitVec 5) : BitVec 5 :=
  BitVec.ofNat 5 ((w.toNat + 1) % n.toNat)

/-! ## State registers as words -/

/-- The bits of WIM that stand for a window: 0 .. NWINDOWS-1 (10_state.md rule R29). -/
def windowMask (n : NWindows) : Word := BitVec.ofNat 32 (2 ^ n.toNat - 1)

/-- WIM as RDWIM reads it (10_state.md rule R29). -/
def State.wimWord (s : State) : Word := s.wim &&& windowMask s.cfg.nwindows

/-- Bit w of WIM: window w is invalid (10_state.md rule R29). -/
def State.windowInvalid (s : State) (w : BitVec 5) : Bool := s.wimWord.getLsbD w.toNat

/-- PSR as a word (10_state.md rule R34): impl, ver, N, Z, V, C, six zero bits, EC = 0, EF = 0, PIL, S, PS, ET, CWP. -/
def Psr.toWord (cfg : Config) (p : Psr) : Word :=
  cfg.psrImpl ++ cfg.psrVer ++ BitVec.ofBool p.icc.n ++ BitVec.ofBool p.icc.z ++ BitVec.ofBool p.icc.v ++
    BitVec.ofBool p.icc.c ++ 0#6 ++ 0#1 ++ 0#1 ++ p.pil ++ BitVec.ofBool p.s ++ BitVec.ofBool p.ps ++
    BitVec.ofBool p.et ++ p.cwp

/-- The writable fields of PSR in a word (46_state_register.md rule R304); the other bits are ignored. -/
def Psr.ofWord (v : Word) : Psr where
  icc := ⟨v.getLsbD 23, v.getLsbD 22, v.getLsbD 21, v.getLsbD 20⟩
  pil := v.extractLsb' 8 4
  s := v.getLsbD 7
  ps := v.getLsbD 6
  et := v.getLsbD 5
  cwp := v.extractLsb' 0 5

/-- PSR as RDPSR reads it. -/
def State.psrWord (s : State) : Word := s.psr.toWord s.cfg

/-- TBR as a word (10_state.md rule R38): TBA, tt, four zero bits. -/
def Tbr.toWord (t : Tbr) : Word := t.tba ++ t.tt ++ 0#4

/-! ## Memory (20_memory.md) -/

/-- What an address that is not listed reads as: the spec gives memory no reset contents (10_state.md rule R43). Log
entry 3. -/
def Memory.unlisted : Byte := 0

/-- The byte at an address. -/
def Memory.read : Memory → Nat → Byte
  | [], _ => Memory.unlisted
  | (k, v) :: m, a => if k = a then v else Memory.read m a

/-- A memory without an entry for an address. -/
def Memory.erase : Memory → Nat → Memory
  | [], _ => []
  | (k, v) :: m, a => if k = a then Memory.erase m a else (k, v) :: Memory.erase m a

/-- A memory with an entry put before the first higher address. -/
def Memory.insert : Memory → Nat → Byte → Memory
  | [], a, b => [(a, b)]
  | (k, v) :: m, a, b => if a < k then (a, b) :: (k, v) :: m else (k, v) :: Memory.insert m a b

/-- A write of one byte: writing what an unlisted address reads as removes the entry. -/
def Memory.write (m : Memory) (a : Nat) (b : Byte) : Memory :=
  if b = Memory.unlisted then m.erase a else (m.erase a).insert a b

/-- Every address of a memory is above a bound, the addresses rise strictly, and no entry is what an unlisted address
reads as. -/
def Memory.wfAbove : Option Nat → Memory → Bool
  | _, [] => true
  | lo, (k, v) :: m => (lo.all fun l => decide (l < k)) && v != Memory.unlisted && Memory.wfAbove (some k) m

/-- The canonical form of a memory. -/
def Memory.wf (m : Memory) : Bool := Memory.wfAbove none m

/-- The memory a list of loaded bytes makes, a later byte replacing an earlier one. -/
def Memory.ofBytes (l : List (Word × Byte)) : Memory :=
  l.foldl (fun m c => Memory.write m c.1.toNat c.2) []

/-- Adds an address to a strictly rising list of addresses. -/
def addAddress : List Nat → Nat → List Nat
  | [], a => [a]
  | k :: l, a => if a < k then a :: k :: l else if a = k then k :: l else k :: addAddress l a

/-- A strictly rising list of addresses, all above a bound. -/
def risingAbove : Option Nat → List Nat → Bool
  | _, [] => true
  | lo, k :: l => (lo.all fun b => decide (b < k)) && risingAbove (some k) l

/-- An address that holds memory under MEM_MAP (20_memory.md rule R70). -/
def State.populated (s : State) (a : Word) : Bool :=
  s.cfg.memMap.any fun r => decide (r.1.toNat ≤ a.toNat) && decide (a.toNat ≤ r.2.toNat)

/-- All of the n bytes at an address are populated. Log entry 8. -/
def State.accessible (s : State) (a : Word) (n : Nat) : Bool :=
  (List.range n).all fun k => s.populated (a + BitVec.ofNat 32 k)

/-- An address that is a multiple of n (20_memory.md rule R64). -/
def aligned (n : Nat) (a : Word) : Bool := a.toNat % n == 0

/-- `MemRead(a, 1)` (00_scope.md rule R11). -/
def State.readByte (s : State) (a : Word) : Byte := s.mem.read a.toNat

/-- `MemRead(a, 2)`, big-endian (20_memory.md rule R63). -/
def State.readHalf (s : State) (a : Word) : BitVec 16 := s.readByte a ++ s.readByte (a + 1)

/-- `MemRead(a, 4)`, big-endian (20_memory.md rule R63). -/
def State.readWord (s : State) (a : Word) : Word :=
  wordOfBytes (s.readByte a) (s.readByte (a + 1)) (s.readByte (a + 2)) (s.readByte (a + 3))

/-- `MemWrite(a, 1, b)` by the program (00_scope.md rule R11); the address joins those it has stored to
(20_memory.md rule R76). -/
def State.storeByte (s : State) (a : Word) (b : Byte) : State :=
  { s with mem := s.mem.write a.toNat b, storedTo := addAddress s.storedTo a.toNat }

/-- The DMA agent's writes; they are not stores of the program (20_memory.md rules R73 and R76). -/
def State.applyDma (s : State) (l : List (Word × Byte)) : State :=
  { s with mem := l.foldl (fun m c => Memory.write m c.1.toNat c.2) s.mem }

/-- The DMA writes under way land (20_memory.md rule R67). -/
def State.landDma (s : State) : State := { s.applyDma s.dmaPending with dmaPending := [] }

/-- `MemWrite(a, 2, v)`, the most significant byte at a. -/
def State.storeHalf (s : State) (a : Word) (v : BitVec 16) : State :=
  (s.storeByte a (v.extractLsb' 8 8)).storeByte (a + 1) (v.extractLsb' 0 8)

/-- `MemWrite(a, 4, v)`, the most significant byte at a. -/
def State.storeWord (s : State) (a v : Word) : State :=
  (((s.storeByte a (v.extractLsb' 24 8)).storeByte (a + 1) (v.extractLsb' 16 8)).storeByte (a + 2)
    (v.extractLsb' 8 8)).storeByte (a + 3) (v.extractLsb' 0 8)

/-- A doubleword store: the word v at ea, then the word u at ea + 4; each word is one access, and the DMA writes under way
land between the two (20_memory.md rule R67). -/
def State.storeDouble (s : State) (ea v u : Word) : State := (s.storeWord ea v).landDma.storeWord (ea + 4) u

/-! ## Condition codes and Y -/

/-- `(N,Z,V,C) <- f`. -/
def State.setIcc (s : State) (f : Icc) : State := { s with psr := { s.psr with icc := f } }

/-- `Y <- v`. -/
def State.setY (s : State) (v : Word) : State := { s with y := v }

/-! ## How an instruction completes -/

/-- One executed instruction less inside a window. -/
def tickCount (n : Fin 4) : Fin 4 := ⟨n.val - 1, by omega⟩

/-- An executed instruction decrements every nonzero count (70_reset_and_hazards.md rule R380(b)). -/
def Pending.tick (p : Pending) : Pending :=
  { p with psr := tickCount p.psr, wim := tickCount p.wim, tbr := tickCount p.tbr, y := tickCount p.y }

/-- The end of an executed instruction: PC and nPC move, `dcti_prev` is set (43_branch.md rule R240), the
delayed-write windows count one instruction. -/
def State.complete (s : State) (pc npc : Word) (d : DctiPrev) : State :=
  { s with pc := pc, npc := npc, dctiPrev := d, pending := s.pending.tick }

/-- `advance` (00_scope.md rule R13). -/
def State.advance (s : State) : State := s.complete s.npc (s.npc + 4) .none

/-- Opens the delayed-write window of WIM (46_state_register.md rule R307). -/
def State.openWimWindow (s : State) : State := { s with pending := { s.pending with wim := 3 } }

/-- Opens the delayed-write window of TBR. -/
def State.openTbrWindow (s : State) : State := { s with pending := { s.pending with tbr := 3 } }

/-- Opens the delayed-write window of Y. -/
def State.openYWindow (s : State) : State := { s with pending := { s.pending with y := 3 } }

/-- The fields in which two values of PSR differ: `changed` (10_state.md rule R42). -/
def Psr.changedFrom (old new : Psr) : PsrChanged where
  icc := old.icc != new.icc
  pil := old.pil != new.pil
  s := old.s != new.s
  ps := old.ps != new.ps
  et := old.et != new.et
  cwp := old.cwp != new.cwp

/-- Opens the delayed-write window of PSR for a write over the value `old`. -/
def State.openPsrWindow (s : State) (old : Psr) : State :=
  { s with pending := { s.pending with psr := 3, changed := Psr.changedFrom old s.psr, oldPil := old.pil } }

/-! ## Taking a trap, error mode, returning from a trap -/

/-- The trap entry sequence of 60_exceptions.md rule R330 for trap type t. -/
def State.trapEntry (s : State) (t : BitVec 8) : State :=
  let w := prevWindow s.cfg.nwindows s.psr.cwp
  let tbr : Tbr := { s.tbr with tt := t }
  let s1 : State :=
    { s with
      tbr := tbr
      psr := { s.psr with et := false, ps := s.psr.s, s := true, cwp := w }
      pc := tbr.toWord
      npc := tbr.toWord + 4
      dctiPrev := .none }
  (s1.writeRegAt w 17 s.pc).writeRegAt w 18 s.npc

/-- Error mode (60_exceptions.md rule R336): everything as it was, but TBR.tt, which holds any value. -/
def State.enterErrorMode (s : State) : State :=
  { s with
    errorMode := true
    tbr := { s.tbr with tt := (Config.freeWord s.freeCount).extractLsb' 0 8 }
    freeCount := s.freeCount + 1 }

/-- The PSR window is open after a write that changed S or CWP. -/
def State.modeOrWindowUnsettled (s : State) : Bool :=
  s.pending.psr != 0 && (s.pending.changed.s || s.pending.changed.cwp)

/-- `raise T` (00_scope.md rule R12): inside a delayed-write window the entry depends on, refused
(70_reset_and_hazards.md rule R380(c)); with ET = 0, error mode (60_exceptions.md rule R336); else trap entry. -/
def raise (t : Trap) (s : State) : Result :=
  if s.modeOrWindowUnsettled then .refused (.trapInDelayedWrite .psr)
  else if s.psr.et = false then .next s.enterErrorMode
  else if s.pending.tbr ≠ 0 then .refused (.trapInDelayedWrite .tbr)
  else .next (s.trapEntry t.tt)

/-- The successful path of RETT (45_trap_instructions.md rule R298): CWP + 1, PC <- nPC, nPC <- target, S <- PS,
ET <- 1. -/
def State.returnFromTrap (s : State) (target : Word) : State :=
  ({ s with psr := { s.psr with cwp := nextWindow s.cfg.nwindows s.psr.cwp, s := s.psr.ps, et := true } } : State).complete
    s.npc target .uncond

/-- A privileged instruction (60_exceptions.md rule R351): with S = 0 it raises privileged_instruction and does nothing
else. -/
def privileged (s : State) (k : Result) : Result :=
  if s.psr.s then k else raise .privilegedInstruction s

/-- A data access of n bytes at ea (42_load_store.md rule R209): misaligned, then unpopulated, trap with nothing
changed; else the access has its effect. -/
def withAccess (n : Nat) (ea : Word) (s : State) (done : State) : Result :=
  if aligned n ea = false then raise .memAddressNotAligned s
  else if s.accessible ea n = false then raise .dataAccessException s
  else .next done

end Sys2Proof.Machine
end

