-- ==== Sys2Proof/Machine/Operands.lean ====
section
/-! DEFINITION. The operand forms (30_encoding.md rule R103): operand 2, the effective address, the shift count, the trap
number and the branch target. -/

namespace Sys2Proof.Machine

/-- `op2val` (00_scope.md rule R10): x[rs2], or simm13 sign-extended (30_encoding.md rule R97). -/
def State.op2val (s : State) : Operand2 → Word
  | .reg rs2 => s.readReg rs2
  | .imm simm13 => simm13.signExtend 32

/-- `x[rs1] + op2val` modulo 2^32: the effective address of a load or store (42_load_store.md rule R201), the target of
JMPL and RETT, the sum of SAVE and RESTORE. -/
def State.address (s : State) (rs1 : RegIdx) (op2 : Operand2) : Word := s.readReg rs1 + s.op2val op2

/-- The count of a shift, 0 to 31 (41_logical_shift_sethi.md rule R184). -/
def State.shiftCount (s : State) : ShiftCount → BitVec 5
  | .reg rs2 => (s.readReg rs2).extractLsb' 0 5
  | .imm shcnt => shcnt

/-- The low seven bits of x[rs1] + x[rs2], or of x[rs1] + imm7 zero-extended (45_trap_instructions.md rule R281). -/
def State.trapNumber (s : State) (rs1 : RegIdx) : TrapNumber → BitVec 7
  | .reg rs2 => (s.readReg rs1 + s.readReg rs2).extractLsb' 0 7
  | .imm imm7 => (s.readReg rs1 + imm7.setWidth 32).extractLsb' 0 7

/-- PC + 4 * sext_32(disp22) (30_encoding.md rule R99). -/
def State.branchTarget (s : State) (disp22 : BitVec 22) : Word := s.pc + 4 * disp22.signExtend 32

/-- PC + 4 * sext_32(disp30) (30_encoding.md rule R100). -/
def State.callTarget (s : State) (disp30 : BitVec 30) : Word := s.pc + 4 * disp30.signExtend 32

end Sys2Proof.Machine
end

