-- ==== Sys2Proof/Machine/Branch.lean ====
section
/-! DEFINITION. The sixteen branches (43_branch.md). -/

namespace Sys2Proof.Machine

/-- Bicc, all cases (43_branch.md rule R237), with the `dcti_prev` of rule R240: `cond` for a branch other than BA
whose delay instruction will execute, `uncond` for BA with a = 0, `none` for a branch that annuls. -/
def bicc (k : Cond) (a : Bool) (disp22 : BitVec 22) (s : State) : Result :=
  let target := s.branchTarget disp22
  if condTrue k s.psr.icc then
    if k = .a ∧ a = true then .next (s.complete target (target + 4) .none)
    else .next (s.complete s.npc target (if k = .a then .uncond else .cond))
  else if a then .next (s.complete (s.npc + 4) (s.npc + 8) .none)
  else .next (s.complete s.npc (s.npc + 4) .cond)

/-- BA (43_branch.md rule R241). -/
def execBa (a : Bool) (disp22 : BitVec 22) (s : State) : Result :=
  bicc .a a disp22 s

/-- BN (43_branch.md rule R242). -/
def execBn (a : Bool) (disp22 : BitVec 22) (s : State) : Result :=
  bicc .n a disp22 s

/-- BNE (43_branch.md rule R243). -/
def execBne (a : Bool) (disp22 : BitVec 22) (s : State) : Result :=
  bicc .ne a disp22 s

/-- BE (43_branch.md rule R244). -/
def execBe (a : Bool) (disp22 : BitVec 22) (s : State) : Result :=
  bicc .e a disp22 s

/-- BG (43_branch.md rule R245). -/
def execBg (a : Bool) (disp22 : BitVec 22) (s : State) : Result :=
  bicc .g a disp22 s

/-- BLE (43_branch.md rule R246). -/
def execBle (a : Bool) (disp22 : BitVec 22) (s : State) : Result :=
  bicc .le a disp22 s

/-- BGE (43_branch.md rule R247). -/
def execBge (a : Bool) (disp22 : BitVec 22) (s : State) : Result :=
  bicc .ge a disp22 s

/-- BL (43_branch.md rule R248). -/
def execBl (a : Bool) (disp22 : BitVec 22) (s : State) : Result :=
  bicc .l a disp22 s

/-- BGU (43_branch.md rule R249). -/
def execBgu (a : Bool) (disp22 : BitVec 22) (s : State) : Result :=
  bicc .gu a disp22 s

/-- BLEU (43_branch.md rule R250). -/
def execBleu (a : Bool) (disp22 : BitVec 22) (s : State) : Result :=
  bicc .leu a disp22 s

/-- BCC (43_branch.md rule R251). -/
def execBcc (a : Bool) (disp22 : BitVec 22) (s : State) : Result :=
  bicc .cc a disp22 s

/-- BCS (43_branch.md rule R252). -/
def execBcs (a : Bool) (disp22 : BitVec 22) (s : State) : Result :=
  bicc .cs a disp22 s

/-- BPOS (43_branch.md rule R253). -/
def execBpos (a : Bool) (disp22 : BitVec 22) (s : State) : Result :=
  bicc .pos a disp22 s

/-- BNEG (43_branch.md rule R254). -/
def execBneg (a : Bool) (disp22 : BitVec 22) (s : State) : Result :=
  bicc .neg a disp22 s

/-- BVC (43_branch.md rule R255). -/
def execBvc (a : Bool) (disp22 : BitVec 22) (s : State) : Result :=
  bicc .vc a disp22 s

/-- BVS (43_branch.md rule R256). -/
def execBvs (a : Bool) (disp22 : BitVec 22) (s : State) : Result :=
  bicc .vs a disp22 s

end Sys2Proof.Machine
end

