-- ==== Sys2Proof/Machine/LoadStore.lean ====
section
/-! DEFINITION. Loads, stores, LDSTUB and SWAP (42_load_store.md). -/

namespace Sys2Proof.Machine

/-- LDD and STD need an even rd (42_load_store.md rule R209): an odd one raises illegal_instruction before anything
else. -/
def evenPair (rd : RegIdx) (s : State) (k : Result) : Result :=
  if rd.getLsbD 0 then raise .illegalInstruction s else k

/-- A load of n bytes that gives x[rd] the value v. -/
def loadValue (n : Nat) (ea : Word) (rd : RegIdx) (v : Word) (s : State) : Result :=
  withAccess n ea s (s.writeReg rd v).advance

/-- LDSB (42_load_store.md rule R202). -/
def execLdsb (rd : RegIdx) (rs1 : RegIdx) (op2 : Operand2) (s : State) : Result :=
  let ea := s.address rs1 op2
  loadValue 1 ea rd ((s.readByte ea).signExtend 32) s

/-- LDUB (42_load_store.md rule R203). -/
def execLdub (rd : RegIdx) (rs1 : RegIdx) (op2 : Operand2) (s : State) : Result :=
  let ea := s.address rs1 op2
  loadValue 1 ea rd ((s.readByte ea).setWidth 32) s

/-- LDSH (42_load_store.md rule R204). -/
def execLdsh (rd : RegIdx) (rs1 : RegIdx) (op2 : Operand2) (s : State) : Result :=
  let ea := s.address rs1 op2
  loadValue 2 ea rd ((s.readHalf ea).signExtend 32) s

/-- LDUH (42_load_store.md rule R205). -/
def execLduh (rd : RegIdx) (rs1 : RegIdx) (op2 : Operand2) (s : State) : Result :=
  let ea := s.address rs1 op2
  loadValue 2 ea rd ((s.readHalf ea).setWidth 32) s

/-- LD (42_load_store.md rule R206). -/
def execLd (rd : RegIdx) (rs1 : RegIdx) (op2 : Operand2) (s : State) : Result :=
  let ea := s.address rs1 op2
  loadValue 4 ea rd (s.readWord ea) s

/-- LDD (42_load_store.md rule R207): DMA may write between the two words (20_memory.md rule R67). -/
def execLdd (rd : RegIdx) (rs1 : RegIdx) (op2 : Operand2) (s : State) : Result :=
  let ea := s.address rs1 op2
  evenPair rd s
    (withAccess 8 ea s
      ((s.landDma.writeReg rd (s.readWord ea)).writeReg (rd + 1) (s.landDma.readWord (ea + 4))).advance)

/-- STB (42_load_store.md rule R210). -/
def execStb (rd : RegIdx) (rs1 : RegIdx) (op2 : Operand2) (s : State) : Result :=
  let ea := s.address rs1 op2
  withAccess 1 ea s (s.storeByte ea ((s.readReg rd).extractLsb' 0 8)).advance

/-- STH (42_load_store.md rule R211). -/
def execSth (rd : RegIdx) (rs1 : RegIdx) (op2 : Operand2) (s : State) : Result :=
  let ea := s.address rs1 op2
  withAccess 2 ea s (s.storeHalf ea ((s.readReg rd).extractLsb' 0 16)).advance

/-- ST (42_load_store.md rule R212). -/
def execSt (rd : RegIdx) (rs1 : RegIdx) (op2 : Operand2) (s : State) : Result :=
  let ea := s.address rs1 op2
  withAccess 4 ea s (s.storeWord ea (s.readReg rd)).advance

/-- STD (42_load_store.md rule R213): DMA may write between the two words (20_memory.md rule R67). -/
def execStd (rd : RegIdx) (rs1 : RegIdx) (op2 : Operand2) (s : State) : Result :=
  let ea := s.address rs1 op2
  evenPair rd s
    (withAccess 8 ea s (s.storeDouble ea (s.readReg rd) (s.readReg (rd + 1))).advance)

/-- LDSTUB (42_load_store.md rule R218). -/
def execLdstub (rd : RegIdx) (rs1 : RegIdx) (op2 : Operand2) (s : State) : Result :=
  let ea := s.address rs1 op2
  withAccess 1 ea s ((s.storeByte ea 0xFF).writeReg rd ((s.readByte ea).setWidth 32)).advance

/-- SWAP (42_load_store.md rule R219). -/
def execSwap (rd : RegIdx) (rs1 : RegIdx) (op2 : Operand2) (s : State) : Result :=
  let ea := s.address rs1 op2
  withAccess 4 ea s ((s.storeWord ea (s.readReg rd)).writeReg rd (s.readWord ea)).advance

end Sys2Proof.Machine
end

