-- ==== Sys2Proof/Machine/Arithmetic.lean ====
section
/-! DEFINITION. Add, subtract and tagged instructions (40_arithmetic.md rules R130 to R145). -/

namespace Sys2Proof.Machine

/-- An instruction that writes x[rd] and no flag (40_arithmetic.md rule R130). -/
def writeResult (rd : RegIdx) (v : Word) (s : State) : Result := .next (s.writeReg rd v).advance

/-- An instruction that writes x[rd] and icc (40_arithmetic.md rule R130). -/
def writeResultCc (rd : RegIdx) (v : Word) (f : Icc) (s : State) : Result :=
  .next ((s.writeReg rd v).setIcc f).advance

/-- A tagged instruction that traps on overflow (40_arithmetic.md rules R143 and R145): with V set, tag_overflow and
nothing written. -/
def writeResultOrTagTrap (rd : RegIdx) (v : Word) (f : Icc) (s : State) : Result :=
  if f.v then raise .tagOverflow s else writeResultCc rd v f s

/-- ADD (40_arithmetic.md rule R133). -/
def execAdd (rd : RegIdx) (rs1 : RegIdx) (op2 : Operand2) (s : State) : Result :=
  writeResult rd (s.readReg rs1 + s.op2val op2) s

/-- ADDcc (40_arithmetic.md rule R134). -/
def execAddcc (rd : RegIdx) (rs1 : RegIdx) (op2 : Operand2) (s : State) : Result :=
  writeResultCc rd (s.readReg rs1 + s.op2val op2) (addFlags (s.readReg rs1) (s.op2val op2) false) s

/-- ADDX (40_arithmetic.md rule R135). -/
def execAddx (rd : RegIdx) (rs1 : RegIdx) (op2 : Operand2) (s : State) : Result :=
  writeResult rd (s.readReg rs1 + s.op2val op2 + carryWord s.psr.icc.c) s

/-- ADDXcc (40_arithmetic.md rule R136). -/
def execAddxcc (rd : RegIdx) (rs1 : RegIdx) (op2 : Operand2) (s : State) : Result :=
  writeResultCc rd (s.readReg rs1 + s.op2val op2 + carryWord s.psr.icc.c) (addFlags (s.readReg rs1) (s.op2val op2) s.psr.icc.c) s

/-- SUB (40_arithmetic.md rule R137). -/
def execSub (rd : RegIdx) (rs1 : RegIdx) (op2 : Operand2) (s : State) : Result :=
  writeResult rd (s.readReg rs1 - s.op2val op2) s

/-- SUBcc (40_arithmetic.md rule R138). -/
def execSubcc (rd : RegIdx) (rs1 : RegIdx) (op2 : Operand2) (s : State) : Result :=
  writeResultCc rd (s.readReg rs1 - s.op2val op2) (subFlags (s.readReg rs1) (s.op2val op2) false) s

/-- SUBX (40_arithmetic.md rule R139). -/
def execSubx (rd : RegIdx) (rs1 : RegIdx) (op2 : Operand2) (s : State) : Result :=
  writeResult rd (s.readReg rs1 - s.op2val op2 - carryWord s.psr.icc.c) s

/-- SUBXcc (40_arithmetic.md rule R140). -/
def execSubxcc (rd : RegIdx) (rs1 : RegIdx) (op2 : Operand2) (s : State) : Result :=
  writeResultCc rd (s.readReg rs1 - s.op2val op2 - carryWord s.psr.icc.c) (subFlags (s.readReg rs1) (s.op2val op2) s.psr.icc.c) s

/-- TADDcc (40_arithmetic.md rule R142). -/
def execTaddcc (rd : RegIdx) (rs1 : RegIdx) (op2 : Operand2) (s : State) : Result :=
  writeResultCc rd (s.readReg rs1 + s.op2val op2) (taggedAddFlags (s.readReg rs1) (s.op2val op2)) s

/-- TADDccTV (40_arithmetic.md rule R143). -/
def execTaddcctv (rd : RegIdx) (rs1 : RegIdx) (op2 : Operand2) (s : State) : Result :=
  writeResultOrTagTrap rd (s.readReg rs1 + s.op2val op2) (taggedAddFlags (s.readReg rs1) (s.op2val op2)) s

/-- TSUBcc (40_arithmetic.md rule R144). -/
def execTsubcc (rd : RegIdx) (rs1 : RegIdx) (op2 : Operand2) (s : State) : Result :=
  writeResultCc rd (s.readReg rs1 - s.op2val op2) (taggedSubFlags (s.readReg rs1) (s.op2val op2)) s

/-- TSUBccTV (40_arithmetic.md rule R145). -/
def execTsubcctv (rd : RegIdx) (rs1 : RegIdx) (op2 : Operand2) (s : State) : Result :=
  writeResultOrTagTrap rd (s.readReg rs1 - s.op2val op2) (taggedSubFlags (s.readReg rs1) (s.op2val op2)) s

end Sys2Proof.Machine
end

