-- ==== Sys2Proof/Machine/Logical.lean ====
section
/-! DEFINITION. Logical and shift instructions, SETHI and NOP (41_logical_shift_sethi.md). -/

namespace Sys2Proof.Machine

/-- A logical instruction that writes icc (41_logical_shift_sethi.md rule R183). -/
def writeLogicalCc (rd : RegIdx) (v : Word) (s : State) : Result := writeResultCc rd v (logicFlags v) s

/-- AND (41_logical_shift_sethi.md rule R171). -/
def execAnd (rd : RegIdx) (rs1 : RegIdx) (op2 : Operand2) (s : State) : Result :=
  writeResult rd (s.readReg rs1 &&& s.op2val op2) s

/-- ANDcc (41_logical_shift_sethi.md rule R172). -/
def execAndcc (rd : RegIdx) (rs1 : RegIdx) (op2 : Operand2) (s : State) : Result :=
  writeLogicalCc rd (s.readReg rs1 &&& s.op2val op2) s

/-- OR (41_logical_shift_sethi.md rule R173). -/
def execOr (rd : RegIdx) (rs1 : RegIdx) (op2 : Operand2) (s : State) : Result :=
  writeResult rd (s.readReg rs1 ||| s.op2val op2) s

/-- ORcc (41_logical_shift_sethi.md rule R174). -/
def execOrcc (rd : RegIdx) (rs1 : RegIdx) (op2 : Operand2) (s : State) : Result :=
  writeLogicalCc rd (s.readReg rs1 ||| s.op2val op2) s

/-- XOR (41_logical_shift_sethi.md rule R175). -/
def execXor (rd : RegIdx) (rs1 : RegIdx) (op2 : Operand2) (s : State) : Result :=
  writeResult rd (s.readReg rs1 ^^^ s.op2val op2) s

/-- XORcc (41_logical_shift_sethi.md rule R176). -/
def execXorcc (rd : RegIdx) (rs1 : RegIdx) (op2 : Operand2) (s : State) : Result :=
  writeLogicalCc rd (s.readReg rs1 ^^^ s.op2val op2) s

/-- ANDN (41_logical_shift_sethi.md rule R177). -/
def execAndn (rd : RegIdx) (rs1 : RegIdx) (op2 : Operand2) (s : State) : Result :=
  writeResult rd (s.readReg rs1 &&& ~~~(s.op2val op2)) s

/-- ANDNcc (41_logical_shift_sethi.md rule R178). -/
def execAndncc (rd : RegIdx) (rs1 : RegIdx) (op2 : Operand2) (s : State) : Result :=
  writeLogicalCc rd (s.readReg rs1 &&& ~~~(s.op2val op2)) s

/-- ORN (41_logical_shift_sethi.md rule R179). -/
def execOrn (rd : RegIdx) (rs1 : RegIdx) (op2 : Operand2) (s : State) : Result :=
  writeResult rd (s.readReg rs1 ||| ~~~(s.op2val op2)) s

/-- ORNcc (41_logical_shift_sethi.md rule R180). -/
def execOrncc (rd : RegIdx) (rs1 : RegIdx) (op2 : Operand2) (s : State) : Result :=
  writeLogicalCc rd (s.readReg rs1 ||| ~~~(s.op2val op2)) s

/-- XNOR (41_logical_shift_sethi.md rule R181). -/
def execXnor (rd : RegIdx) (rs1 : RegIdx) (op2 : Operand2) (s : State) : Result :=
  writeResult rd (~~~(s.readReg rs1 ^^^ s.op2val op2)) s

/-- XNORcc (41_logical_shift_sethi.md rule R182). -/
def execXnorcc (rd : RegIdx) (rs1 : RegIdx) (op2 : Operand2) (s : State) : Result :=
  writeLogicalCc rd (~~~(s.readReg rs1 ^^^ s.op2val op2)) s

/-- SLL (41_logical_shift_sethi.md rule R185). -/
def execSll (rd : RegIdx) (rs1 : RegIdx) (cnt : ShiftCount) (s : State) : Result :=
  writeResult rd (s.readReg rs1 <<< (s.shiftCount cnt).toNat) s

/-- SRL (41_logical_shift_sethi.md rule R186). -/
def execSrl (rd : RegIdx) (rs1 : RegIdx) (cnt : ShiftCount) (s : State) : Result :=
  writeResult rd (s.readReg rs1 >>> (s.shiftCount cnt).toNat) s

/-- SRA (41_logical_shift_sethi.md rule R187). -/
def execSra (rd : RegIdx) (rs1 : RegIdx) (cnt : ShiftCount) (s : State) : Result :=
  writeResult rd ((s.readReg rs1).sshiftRight (s.shiftCount cnt).toNat) s

/-- SETHI (41_logical_shift_sethi.md rule R190). -/
def execSethi (rd : RegIdx) (imm22 : BitVec 22) (s : State) : Result :=
  writeResult rd (imm22 ++ 0#10) s

/-- NOP (41_logical_shift_sethi.md rule R191). -/
def execNop (s : State) : Result :=
  .next s.advance

end Sys2Proof.Machine
end

