-- ==== Sys2Proof/Machine/MulDiv.lean ====
section
/-! DEFINITION. Multiply step, multiply and divide (40_arithmetic.md rules R146 to R156). -/

namespace Sys2Proof.Machine

/-- u(a) * u(b) as a 64-bit number (40_arithmetic.md rule R148). -/
def unsignedProduct (a b : Word) : BitVec 64 := BitVec.ofNat 64 (a.toNat * b.toNat)

/-- s(a) * s(b) as a 64-bit two's complement number (40_arithmetic.md rule R150). -/
def signedProduct (a b : Word) : BitVec 64 := BitVec.ofInt 64 (a.toInt * b.toInt)

/-- Y <- P[63:32]. -/
def highWord (p : BitVec 64) : Word := p.extractLsb' 32 32

/-- x[rd] <- P[31:0]. -/
def lowWord (p : BitVec 64) : Word := p.extractLsb' 0 32

/-- The quotient of UDIV and whether it overflowed (40_arithmetic.md rule R152), for a nonzero divisor. -/
def unsignedQuotient (y a b : Word) : Word × Bool :=
  let q := (y ++ a).toNat / b.toNat
  if q > 0xFFFFFFFF then (0xFFFFFFFF, true) else (BitVec.ofNat 32 q, false)

/-- The quotient of SDIV and whether it overflowed (40_arithmetic.md rule R154), for a nonzero divisor: rounded toward
zero, saturated. -/
def signedQuotient (y a b : Word) : Word × Bool :=
  let q := Int.tdiv (y ++ a).toInt b.toInt
  if q > 2 ^ 31 - 1 then (0x7FFFFFFF, true)
  else if q < -(2 ^ 31) then (0x80000000, true)
  else (BitVec.ofInt 32 q, false)

/-- A multiply: Y and x[rd] take the two words of the product, icc the flags if there are any. -/
def writeProduct (rd : RegIdx) (p : BitVec 64) (s : State) : Result :=
  .next ((s.writeReg rd (lowWord p)).setY (highWord p)).advance

/-- A multiply that writes icc (40_arithmetic.md rules R149 and R151): N and Z from the low word, V = C = 0. -/
def writeProductCc (rd : RegIdx) (p : BitVec 64) (s : State) : Result :=
  .next (((s.writeReg rd (lowWord p)).setY (highWord p)).setIcc (logicFlags (lowWord p))).advance

/-- A divide: a zero divisor raises division_by_zero with nothing written (40_arithmetic.md rules R152 to R155). -/
def divideBy (b : Word) (s : State) (k : Result) : Result :=
  if b = 0 then raise .divisionByZero s else k

/-- The first addend of MULScc: x[rs1] shifted right one, N xor V entering at bit 31 (40_arithmetic.md rule R147). -/
def mulStepOp1 (s : State) (a : Word) : Word :=
  BitVec.ofBool (s.psr.icc.n ^^ s.psr.icc.v) ++ a.extractLsb' 1 31

/-- The second addend of MULScc: b if bit 0 of Y is 1, else 0 (40_arithmetic.md rule R147). -/
def mulStepOp2 (s : State) (b : Word) : Word := if s.y.getLsbD 0 then b else 0

/-- Y after MULScc: shifted right one, bit 0 of x[rs1] entering at bit 31 (40_arithmetic.md rule R147). -/
def mulStepY (s : State) (a : Word) : Word := a.extractLsb' 0 1 ++ s.y.extractLsb' 1 31

/-- MULScc (40_arithmetic.md rule R147). -/
def execMulscc (rd : RegIdx) (rs1 : RegIdx) (op2 : Operand2) (s : State) : Result :=
  let op1 := mulStepOp1 s (s.readReg rs1)
  let op2 := mulStepOp2 s (s.op2val op2)
  .next (((s.writeReg rd (op1 + op2)).setY (mulStepY s (s.readReg rs1))).setIcc (addFlags op1 op2 false)).advance

/-- UMUL (40_arithmetic.md rule R148). -/
def execUmul (rd : RegIdx) (rs1 : RegIdx) (op2 : Operand2) (s : State) : Result :=
  writeProduct rd (unsignedProduct (s.readReg rs1) (s.op2val op2)) s

/-- UMULcc (40_arithmetic.md rule R149). -/
def execUmulcc (rd : RegIdx) (rs1 : RegIdx) (op2 : Operand2) (s : State) : Result :=
  writeProductCc rd (unsignedProduct (s.readReg rs1) (s.op2val op2)) s

/-- SMUL (40_arithmetic.md rule R150). -/
def execSmul (rd : RegIdx) (rs1 : RegIdx) (op2 : Operand2) (s : State) : Result :=
  writeProduct rd (signedProduct (s.readReg rs1) (s.op2val op2)) s

/-- SMULcc (40_arithmetic.md rule R151). -/
def execSmulcc (rd : RegIdx) (rs1 : RegIdx) (op2 : Operand2) (s : State) : Result :=
  writeProductCc rd (signedProduct (s.readReg rs1) (s.op2val op2)) s

/-- UDIV (40_arithmetic.md rule R152). -/
def execUdiv (rd : RegIdx) (rs1 : RegIdx) (op2 : Operand2) (s : State) : Result :=
  divideBy (s.op2val op2) s (writeResult rd (unsignedQuotient s.y (s.readReg rs1) (s.op2val op2)).1 s)

/-- UDIVcc (40_arithmetic.md rule R153). -/
def execUdivcc (rd : RegIdx) (rs1 : RegIdx) (op2 : Operand2) (s : State) : Result :=
  let q := unsignedQuotient s.y (s.readReg rs1) (s.op2val op2)
  divideBy (s.op2val op2) s (writeResultCc rd q.1 (divFlags q.1 q.2) s)

/-- SDIV (40_arithmetic.md rule R154). -/
def execSdiv (rd : RegIdx) (rs1 : RegIdx) (op2 : Operand2) (s : State) : Result :=
  divideBy (s.op2val op2) s (writeResult rd (signedQuotient s.y (s.readReg rs1) (s.op2val op2)).1 s)

/-- SDIVcc (40_arithmetic.md rule R155). -/
def execSdivcc (rd : RegIdx) (rs1 : RegIdx) (op2 : Operand2) (s : State) : Result :=
  let q := signedQuotient s.y (s.readReg rs1) (s.op2val op2)
  divideBy (s.op2val op2) s (writeResultCc rd q.1 (divFlags q.1 q.2) s)

end Sys2Proof.Machine
end

