-- ==== Sys2Proof/Machine/StateRegisters.lean ====
section
/-! DEFINITION. Reading and writing the state registers (46_state_register.md). -/

namespace Sys2Proof.Machine

/-- The value a write state register instruction writes: an exclusive or (46_state_register.md section 3). -/
def State.writeValue (s : State) (rs1 : RegIdx) (op2 : Operand2) : Word := s.readReg rs1 ^^^ s.op2val op2

/-- RDPSR (46_state_register.md rule R301). -/
def execRdpsr (rd : RegIdx) (s : State) : Result :=
  privileged s (.next (s.writeReg rd s.psrWord).advance)

/-- RDWIM (46_state_register.md rule R302). -/
def execRdwim (rd : RegIdx) (s : State) : Result :=
  privileged s (.next (s.writeReg rd s.wimWord).advance)

/-- RDTBR (46_state_register.md rule R303). -/
def execRdtbr (rd : RegIdx) (s : State) : Result :=
  privileged s (.next (s.writeReg rd s.tbr.toWord).advance)

/-- WRPSR (46_state_register.md rule R304). -/
def execWrpsr (rs1 : RegIdx) (op2 : Operand2) (s : State) : Result :=
  let v := s.writeValue rs1 op2
  privileged s
    (if s.cfg.nwindows.toNat ≤ (Psr.ofWord v).cwp.toNat then raise .illegalInstruction s
     else .next (({ s with psr := Psr.ofWord v } : State).advance.openPsrWindow s.psr))

/-- WRWIM (46_state_register.md rule R305). -/
def execWrwim (rs1 : RegIdx) (op2 : Operand2) (s : State) : Result :=
  privileged s
    (.next (({ s with wim := s.writeValue rs1 op2 &&& windowMask s.cfg.nwindows } : State).advance.openWimWindow))

/-- WRTBR (46_state_register.md rule R306). -/
def execWrtbr (rs1 : RegIdx) (op2 : Operand2) (s : State) : Result :=
  let v := s.writeValue rs1 op2
  privileged s
    (.next (({ s with tbr := { s.tbr with tba := v.extractLsb' 12 20 } } : State).advance.openTbrWindow))

/-- RDY (46_state_register.md rule R308). -/
def execRdy (rd : RegIdx) (s : State) : Result :=
  .next (s.writeReg rd s.y).advance

/-- WRY (46_state_register.md rule R310). -/
def execWry (rs1 : RegIdx) (op2 : Operand2) (s : State) : Result :=
  .next ((s.setY (s.writeValue rs1 op2)).advance.openYWindow)

/-- RDASR (46_state_register.md rule R309): no ancillary state register is implemented, so illegal_instruction. -/
def execRdasr (_rd _asr : RegIdx) (s : State) : Result := raise .illegalInstruction s

/-- WRASR (46_state_register.md rule R311): no ancillary state register is implemented, so illegal_instruction. -/
def execWrasr (_asr _rs1 : RegIdx) (_op2 : Operand2) (s : State) : Result := raise .illegalInstruction s

end Sys2Proof.Machine
end

