-- ==== Sys2Proof/Machine/Subroutine.lean ====
section
/-! DEFINITION. CALL, JMPL, SAVE and RESTORE (44_subroutine.md). -/

namespace Sys2Proof.Machine

/-- SAVE and RESTORE into a valid window (44_subroutine.md rules R268 and R269): the sum is read in the old window and
written to x[rd] of the new one. -/
def moveWindow (w : BitVec 5) (rd : RegIdx) (v : Word) (s : State) : Result :=
  .next (({ s with psr := { s.psr with cwp := w } } : State).writeRegAt w rd v).advance

/-- CALL (44_subroutine.md rule R261). -/
def execCall (disp30 : BitVec 30) (s : State) : Result :=
  .next ((s.writeReg 15 s.pc).complete s.npc (s.callTarget disp30) .uncond)

/-- JMPL (44_subroutine.md rule R264). -/
def execJmpl (rd : RegIdx) (rs1 : RegIdx) (op2 : Operand2) (s : State) : Result :=
  let target := s.address rs1 op2
  if aligned 4 target = false then raise .memAddressNotAligned s
  else .next ((s.writeReg rd s.pc).complete s.npc target .uncond)

/-- SAVE (44_subroutine.md rule R268). -/
def execSave (rd : RegIdx) (rs1 : RegIdx) (op2 : Operand2) (s : State) : Result :=
  let w := prevWindow s.cfg.nwindows s.psr.cwp
  if s.windowInvalid w then raise .windowOverflow s
  else moveWindow w rd (s.address rs1 op2) s

/-- RESTORE (44_subroutine.md rule R269). -/
def execRestore (rd : RegIdx) (rs1 : RegIdx) (op2 : Operand2) (s : State) : Result :=
  let w := nextWindow s.cfg.nwindows s.psr.cwp
  if s.windowInvalid w then raise .windowUnderflow s
  else moveWindow w rd (s.address rs1 op2) s

end Sys2Proof.Machine
end

