-- ==== Sys2Proof/Machine/TrapInstructions.lean ====
section
/-! DEFINITION. Ticc, RETT and UNIMP (45_trap_instructions.md; 30_encoding.md rule R121). -/

namespace Sys2Proof.Machine

/-- Ticc, common to all sixteen (45_trap_instructions.md rule R281). -/
def ticc (k : Cond) (rs1 : RegIdx) (num : TrapNumber) (s : State) : Result :=
  if condTrue k s.psr.icc then raise (.trapInstruction (s.trapNumber rs1 num)) s
  else .next s.advance

/-- TA (45_trap_instructions.md rule R282). -/
def execTa (rs1 : RegIdx) (num : TrapNumber) (s : State) : Result :=
  ticc .a rs1 num s

/-- TN (45_trap_instructions.md rule R283). -/
def execTn (rs1 : RegIdx) (num : TrapNumber) (s : State) : Result :=
  ticc .n rs1 num s

/-- TNE (45_trap_instructions.md rule R284). -/
def execTne (rs1 : RegIdx) (num : TrapNumber) (s : State) : Result :=
  ticc .ne rs1 num s

/-- TE (45_trap_instructions.md rule R285). -/
def execTe (rs1 : RegIdx) (num : TrapNumber) (s : State) : Result :=
  ticc .e rs1 num s

/-- TG (45_trap_instructions.md rule R286). -/
def execTg (rs1 : RegIdx) (num : TrapNumber) (s : State) : Result :=
  ticc .g rs1 num s

/-- TLE (45_trap_instructions.md rule R287). -/
def execTle (rs1 : RegIdx) (num : TrapNumber) (s : State) : Result :=
  ticc .le rs1 num s

/-- TGE (45_trap_instructions.md rule R288). -/
def execTge (rs1 : RegIdx) (num : TrapNumber) (s : State) : Result :=
  ticc .ge rs1 num s

/-- TL (45_trap_instructions.md rule R289). -/
def execTl (rs1 : RegIdx) (num : TrapNumber) (s : State) : Result :=
  ticc .l rs1 num s

/-- TGU (45_trap_instructions.md rule R290). -/
def execTgu (rs1 : RegIdx) (num : TrapNumber) (s : State) : Result :=
  ticc .gu rs1 num s

/-- TLEU (45_trap_instructions.md rule R291). -/
def execTleu (rs1 : RegIdx) (num : TrapNumber) (s : State) : Result :=
  ticc .leu rs1 num s

/-- TCC (45_trap_instructions.md rule R292). -/
def execTcc (rs1 : RegIdx) (num : TrapNumber) (s : State) : Result :=
  ticc .cc rs1 num s

/-- TCS (45_trap_instructions.md rule R293). -/
def execTcs (rs1 : RegIdx) (num : TrapNumber) (s : State) : Result :=
  ticc .cs rs1 num s

/-- TPOS (45_trap_instructions.md rule R294). -/
def execTpos (rs1 : RegIdx) (num : TrapNumber) (s : State) : Result :=
  ticc .pos rs1 num s

/-- TNEG (45_trap_instructions.md rule R295). -/
def execTneg (rs1 : RegIdx) (num : TrapNumber) (s : State) : Result :=
  ticc .neg rs1 num s

/-- TVC (45_trap_instructions.md rule R296). -/
def execTvc (rs1 : RegIdx) (num : TrapNumber) (s : State) : Result :=
  ticc .vc rs1 num s

/-- TVS (45_trap_instructions.md rule R297). -/
def execTvs (rs1 : RegIdx) (num : TrapNumber) (s : State) : Result :=
  ticc .vs rs1 num s

/-- RETT (45_trap_instructions.md rule R298). -/
def execRett (rs1 : RegIdx) (op2 : Operand2) (s : State) : Result :=
  let target := s.address rs1 op2
  if s.psr.et then
    if s.psr.s then raise .illegalInstruction s else raise .privilegedInstruction s
  else if s.psr.s = false then .next s.enterErrorMode
  else if s.windowInvalid (nextWindow s.cfg.nwindows s.psr.cwp) then .next s.enterErrorMode
  else if aligned 4 target = false then .next s.enterErrorMode
  else .next (s.returnFromTrap target)

/-- UNIMP (30_encoding.md rule R121): raises illegal_instruction; its other bits are ignored. -/
def execUnimp (_reserved : BitVec 5) (_const22 : BitVec 22) (s : State) : Result :=
  raise .illegalInstruction s

end Sys2Proof.Machine
end

