-- ==== Sys2Proof/Machine/Dispatch.lean ====
section
/-! DEFINITION. The meaning of every instruction, one arm per constructor. -/

namespace Sys2Proof.Machine

def exec (i : Instr) (s : State) : Host.Outcome State Fault Refusal :=
  match i with
  | .unimp reserved const22 => Sys2Proof.Machine.execUnimp reserved const22 s
  | .nop => Sys2Proof.Machine.execNop s
  | .sethi rd imm22 => Sys2Proof.Machine.execSethi rd imm22 s
  | .ba a disp22 => Sys2Proof.Machine.execBa a disp22 s
  | .bn a disp22 => Sys2Proof.Machine.execBn a disp22 s
  | .bne a disp22 => Sys2Proof.Machine.execBne a disp22 s
  | .be a disp22 => Sys2Proof.Machine.execBe a disp22 s
  | .bg a disp22 => Sys2Proof.Machine.execBg a disp22 s
  | .ble a disp22 => Sys2Proof.Machine.execBle a disp22 s
  | .bge a disp22 => Sys2Proof.Machine.execBge a disp22 s
  | .bl a disp22 => Sys2Proof.Machine.execBl a disp22 s
  | .bgu a disp22 => Sys2Proof.Machine.execBgu a disp22 s
  | .bleu a disp22 => Sys2Proof.Machine.execBleu a disp22 s
  | .bcc a disp22 => Sys2Proof.Machine.execBcc a disp22 s
  | .bcs a disp22 => Sys2Proof.Machine.execBcs a disp22 s
  | .bpos a disp22 => Sys2Proof.Machine.execBpos a disp22 s
  | .bneg a disp22 => Sys2Proof.Machine.execBneg a disp22 s
  | .bvc a disp22 => Sys2Proof.Machine.execBvc a disp22 s
  | .bvs a disp22 => Sys2Proof.Machine.execBvs a disp22 s
  | .call disp30 => Sys2Proof.Machine.execCall disp30 s
  | .add rd rs1 op2 => Sys2Proof.Machine.execAdd rd rs1 op2 s
  | .addcc rd rs1 op2 => Sys2Proof.Machine.execAddcc rd rs1 op2 s
  | .addx rd rs1 op2 => Sys2Proof.Machine.execAddx rd rs1 op2 s
  | .addxcc rd rs1 op2 => Sys2Proof.Machine.execAddxcc rd rs1 op2 s
  | .sub rd rs1 op2 => Sys2Proof.Machine.execSub rd rs1 op2 s
  | .subcc rd rs1 op2 => Sys2Proof.Machine.execSubcc rd rs1 op2 s
  | .subx rd rs1 op2 => Sys2Proof.Machine.execSubx rd rs1 op2 s
  | .subxcc rd rs1 op2 => Sys2Proof.Machine.execSubxcc rd rs1 op2 s
  | .taddcc rd rs1 op2 => Sys2Proof.Machine.execTaddcc rd rs1 op2 s
  | .taddcctv rd rs1 op2 => Sys2Proof.Machine.execTaddcctv rd rs1 op2 s
  | .tsubcc rd rs1 op2 => Sys2Proof.Machine.execTsubcc rd rs1 op2 s
  | .tsubcctv rd rs1 op2 => Sys2Proof.Machine.execTsubcctv rd rs1 op2 s
  | .mulscc rd rs1 op2 => Sys2Proof.Machine.execMulscc rd rs1 op2 s
  | .umul rd rs1 op2 => Sys2Proof.Machine.execUmul rd rs1 op2 s
  | .umulcc rd rs1 op2 => Sys2Proof.Machine.execUmulcc rd rs1 op2 s
  | .smul rd rs1 op2 => Sys2Proof.Machine.execSmul rd rs1 op2 s
  | .smulcc rd rs1 op2 => Sys2Proof.Machine.execSmulcc rd rs1 op2 s
  | .udiv rd rs1 op2 => Sys2Proof.Machine.execUdiv rd rs1 op2 s
  | .udivcc rd rs1 op2 => Sys2Proof.Machine.execUdivcc rd rs1 op2 s
  | .sdiv rd rs1 op2 => Sys2Proof.Machine.execSdiv rd rs1 op2 s
  | .sdivcc rd rs1 op2 => Sys2Proof.Machine.execSdivcc rd rs1 op2 s
  | .and rd rs1 op2 => Sys2Proof.Machine.execAnd rd rs1 op2 s
  | .andcc rd rs1 op2 => Sys2Proof.Machine.execAndcc rd rs1 op2 s
  | .or rd rs1 op2 => Sys2Proof.Machine.execOr rd rs1 op2 s
  | .orcc rd rs1 op2 => Sys2Proof.Machine.execOrcc rd rs1 op2 s
  | .xor rd rs1 op2 => Sys2Proof.Machine.execXor rd rs1 op2 s
  | .xorcc rd rs1 op2 => Sys2Proof.Machine.execXorcc rd rs1 op2 s
  | .andn rd rs1 op2 => Sys2Proof.Machine.execAndn rd rs1 op2 s
  | .andncc rd rs1 op2 => Sys2Proof.Machine.execAndncc rd rs1 op2 s
  | .orn rd rs1 op2 => Sys2Proof.Machine.execOrn rd rs1 op2 s
  | .orncc rd rs1 op2 => Sys2Proof.Machine.execOrncc rd rs1 op2 s
  | .xnor rd rs1 op2 => Sys2Proof.Machine.execXnor rd rs1 op2 s
  | .xnorcc rd rs1 op2 => Sys2Proof.Machine.execXnorcc rd rs1 op2 s
  | .sll rd rs1 cnt => Sys2Proof.Machine.execSll rd rs1 cnt s
  | .srl rd rs1 cnt => Sys2Proof.Machine.execSrl rd rs1 cnt s
  | .sra rd rs1 cnt => Sys2Proof.Machine.execSra rd rs1 cnt s
  | .ldsb rd rs1 op2 => Sys2Proof.Machine.execLdsb rd rs1 op2 s
  | .ldub rd rs1 op2 => Sys2Proof.Machine.execLdub rd rs1 op2 s
  | .ldsh rd rs1 op2 => Sys2Proof.Machine.execLdsh rd rs1 op2 s
  | .lduh rd rs1 op2 => Sys2Proof.Machine.execLduh rd rs1 op2 s
  | .ld rd rs1 op2 => Sys2Proof.Machine.execLd rd rs1 op2 s
  | .ldd rd rs1 op2 => Sys2Proof.Machine.execLdd rd rs1 op2 s
  | .stb rd rs1 op2 => Sys2Proof.Machine.execStb rd rs1 op2 s
  | .sth rd rs1 op2 => Sys2Proof.Machine.execSth rd rs1 op2 s
  | .st rd rs1 op2 => Sys2Proof.Machine.execSt rd rs1 op2 s
  | .std rd rs1 op2 => Sys2Proof.Machine.execStd rd rs1 op2 s
  | .ldstub rd rs1 op2 => Sys2Proof.Machine.execLdstub rd rs1 op2 s
  | .swap rd rs1 op2 => Sys2Proof.Machine.execSwap rd rs1 op2 s
  | .jmpl rd rs1 op2 => Sys2Proof.Machine.execJmpl rd rs1 op2 s
  | .rett rs1 op2 => Sys2Proof.Machine.execRett rs1 op2 s
  | .ta rs1 num => Sys2Proof.Machine.execTa rs1 num s
  | .tn rs1 num => Sys2Proof.Machine.execTn rs1 num s
  | .tne rs1 num => Sys2Proof.Machine.execTne rs1 num s
  | .te rs1 num => Sys2Proof.Machine.execTe rs1 num s
  | .tg rs1 num => Sys2Proof.Machine.execTg rs1 num s
  | .tle rs1 num => Sys2Proof.Machine.execTle rs1 num s
  | .tge rs1 num => Sys2Proof.Machine.execTge rs1 num s
  | .tl rs1 num => Sys2Proof.Machine.execTl rs1 num s
  | .tgu rs1 num => Sys2Proof.Machine.execTgu rs1 num s
  | .tleu rs1 num => Sys2Proof.Machine.execTleu rs1 num s
  | .tcc rs1 num => Sys2Proof.Machine.execTcc rs1 num s
  | .tcs rs1 num => Sys2Proof.Machine.execTcs rs1 num s
  | .tpos rs1 num => Sys2Proof.Machine.execTpos rs1 num s
  | .tneg rs1 num => Sys2Proof.Machine.execTneg rs1 num s
  | .tvc rs1 num => Sys2Proof.Machine.execTvc rs1 num s
  | .tvs rs1 num => Sys2Proof.Machine.execTvs rs1 num s
  | .save rd rs1 op2 => Sys2Proof.Machine.execSave rd rs1 op2 s
  | .restore rd rs1 op2 => Sys2Proof.Machine.execRestore rd rs1 op2 s
  | .rdpsr rd => Sys2Proof.Machine.execRdpsr rd s
  | .rdwim rd => Sys2Proof.Machine.execRdwim rd s
  | .rdtbr rd => Sys2Proof.Machine.execRdtbr rd s
  | .wrpsr rs1 op2 => Sys2Proof.Machine.execWrpsr rs1 op2 s
  | .wrwim rs1 op2 => Sys2Proof.Machine.execWrwim rs1 op2 s
  | .wrtbr rs1 op2 => Sys2Proof.Machine.execWrtbr rs1 op2 s
  | .rdy rd => Sys2Proof.Machine.execRdy rd s
  | .rdasr rd asr => Sys2Proof.Machine.execRdasr rd asr s
  | .wry rs1 op2 => Sys2Proof.Machine.execWry rs1 op2 s
  | .wrasr asr rs1 op2 => Sys2Proof.Machine.execWrasr asr rs1 op2 s

end Sys2Proof.Machine
end

