-- ==== Sys2Proof/Machine/Events.lean ====
section
/-! DEFINITION. What the environment does to the machine: DMA (20_memory.md rule R62), reset (70_reset_and_hazards.md
rule R370), interrupt requests (60_exceptions.md rule R340); and waiting in error mode (rule R336). -/

namespace Sys2Proof.Machine

/-- The environment at rest: no request, no DMA, no reset (00_scope.md rule R6). -/
def Input.idle : Input where
  irl := 0
  dma := []
  dmaBetween := []
  reset := none

/-- The environment's input to this step. -/
def State.input (s : State) : Input := s.inputs.headD .idle

/-- The environment's input used up. -/
def State.popInput (s : State) : State := { s with inputs := s.inputs.tail }

/-- The environment's input taken in: what DMA wrote during the step before lands, then what it writes before this step,
and what it writes during this step is under way. -/
def State.takeInput (s : State) : State :=
  { s.popInput.landDma.applyDma s.input.dma with dmaPending := s.input.dmaBetween }

/-- Free values for the general registers, from the counter k on; G[0] is 0, and what lies past the machine's
16 * NWINDOWS windowed registers is no register (10_state.md rules R25 and R43). -/
def Regs.atReset (n : NWindows) (k : Nat) : Regs where
  globals := Vector.ofFn fun j => if j.val = 0 then 0 else Config.freeWord (k + j.val)
  windowed := Vector.ofFn fun j => if j.val < 16 * n.toNat then Config.freeWord (k + 8 + j.val) else 0

/-- Values for the fields of PSR that reset leaves unspecified, from one free word; S = 1, ET = 0, CWP below
NWINDOWS (10_state.md rule R43). -/
def Psr.atReset (n : NWindows) (w : Word) : Psr :=
  { Psr.ofWord w with s := true, et := false, cwp := BitVec.ofNat 5 (w.toNat % n.toNat) }

/-- The reset trap (70_reset_and_hazards.md rule R370): PC = 0, nPC = 4, S = 1, ET = 0, the hidden state cleared,
memory as the platform has loaded it, and every other register a free value. -/
def State.resetEntry (s : State) (image : List (Word × Byte)) : State :=
  let k := s.freeCount
  let n := s.cfg.nwindows
  { cfg := s.cfg
    regs := Regs.atReset n k
    pc := 0
    npc := 4
    psr := Psr.atReset n (Config.freeWord (k + 520))
    wim := Config.freeWord (k + 521) &&& windowMask n
    tbr := ⟨(Config.freeWord (k + 522)).extractLsb' 12 20, (Config.freeWord (k + 522)).extractLsb' 4 8⟩
    y := Config.freeWord (k + 523)
    mem := Memory.ofBytes image
    storedTo := []
    pending := .closed
    dctiPrev := .none
    errorMode := false
    inputs := s.inputs
    dmaPending := []
    freeCount := k + 524 }

/-- The processor in error mode with no reset asserted (60_exceptions.md rule R336): nothing of it changes. While the
environment may still assert reset it waits; when the environment has nothing more to say and no DMA write is under way
the machine is stuck. `s` is the state before the step, `waited` the same with the environment's input taken in. -/
def errorModeStep (s waited : State) : Result :=
  if s.inputs.isEmpty && s.dmaPending.isEmpty then .fault .errorMode else .next waited

/-- The interrupt test for a value of PIL (60_exceptions.md rule R340). -/
def interruptTest (irl : BitVec 4) (et : Bool) (pil : BitVec 4) : Bool :=
  et && (irl == 15 || decide (pil.toNat < irl.toNat))

/-- The interrupt test before an instruction (60_exceptions.md rule R340; 70_reset_and_hazards.md rule R380(c), row "PSR,
events"): refused where its outcome differs between the old and the new PIL inside the PSR window; if it is accepted the
trap is taken and the instruction at PC is not executed; else the machine goes on to `k`. -/
def withInterruptTest (irl : BitVec 4) (s : State) (k : Result) : Result :=
  if s.pending.psr != 0 && s.pending.changed.pil &&
      (interruptTest irl s.psr.et s.pending.oldPil != interruptTest irl s.psr.et s.psr.pil) then
    .refused .interruptTestInDelayedWrite
  else if interruptTest irl s.psr.et s.psr.pil then raise (.interruptLevel irl) s
  else k

end Sys2Proof.Machine
end

