-- ==== Sys2Proof/Machine/Fetch.lean ====
section
/-! DEFINITION. Fetching the word at PC (20_memory.md rules R65, R70 and R76), what a word that is no instruction does, and
where a test puts a word. -/

namespace Sys2Proof.Machine

/-- The addresses of the four bytes at an address. -/
def fetchAddresses (a : Word) : List Nat := [a.toNat, (a + 1).toNat, (a + 2).toNat, (a + 3).toNat]

/-- The program has stored to one of the four bytes at PC (20_memory.md rule R76). -/
def State.fetchesStored (s : State) : Bool := (fetchAddresses s.pc).any fun a => s.storedTo.contains a

/-- The bytes at PC, the lowest address first. -/
def State.fetchBytes (s : State) : List Byte :=
  [s.readByte s.pc, s.readByte (s.pc + 1), s.readByte (s.pc + 2), s.readByte (s.pc + 3)]

/-- The name under which the machine refuses a word the decoder rejects. -/
def rejection : Reject → Refusal
  | .reservedField => .reservedField
  | .alternateSpace => .alternateSpace
  | .flush => .flush
  | .notFourBytes => .notFourBytes

/-- What a fetched word does: an instruction runs by `run`; an unassigned encoding raises illegal_instruction
(30_encoding.md rule R118); a floating-point or coprocessor one raises fp_disabled or cp_disabled (rule R119); the
others are refused. -/
def runDecoded (d : Decoded) (s : State) (run : Instr → Result) : Result :=
  match d with
  | .instr i => run i
  | .illegal => raise .illegalInstruction s
  | .fpDisabled => raise .fpDisabled s
  | .cpDisabled => raise .cpDisabled s
  | .rejected r => .refused (rejection r)

/-- The fetch at PC: an unpopulated address raises instruction_access_exception (20_memory.md rule R70), a byte the
program has stored to is refused (rule R76); else the bytes are decoded. -/
def withFetch (s : State) (run : Instr → Result) : Result :=
  if s.accessible s.pc 4 = false then raise .instructionAccessException s
  else if s.fetchesStored then .refused .fetchOfStoredByte
  else runDecoded (decodeBytes s.cfg s.fetchBytes) s run

/-- A state with a word's four bytes at PC, as the platform would load them: they are not stores of the program. -/
def State.loadWordAtPc (s : State) (w : Word) : State :=
  { s with
    mem := (((s.mem.write s.pc.toNat (w.extractLsb' 24 8)).write (s.pc + 1).toNat (w.extractLsb' 16 8)).write
      (s.pc + 2).toNat (w.extractLsb' 8 8)).write (s.pc + 3).toNat (w.extractLsb' 0 8)
    storedTo := s.storedTo.filter fun a => !(fetchAddresses s.pc).contains a }

end Sys2Proof.Machine
end

