-- ==== Sys2Proof/Machine/Hazards.lean ====
section
/-! DEFINITION. The refusals a step checks before it executes an instruction: delayed control-transfer couples
(43_branch.md rule R240) and delayed writes (70_reset_and_hazards.md rule R380). -/

namespace Sys2Proof.Machine

/-- What an instruction touches, as the table of 70_reset_and_hazards.md rule R380(c) and 43_branch.md rule R240 ask. -/
structure Uses where
  /-- The register fields: rs1, rs2 when i = 0, rd, and r15 for CALL. -/
  regs : List RegIdx
  /-- Its behaviour depends on icc: a Bicc or Ticc that is not "always" or "never", ADDX, SUBX and their cc forms,
  MULScc. -/
  icc : Bool
  /-- RDPSR, WRPSR. -/
  psr : Bool
  /-- RDWIM, WRWIM, SAVE, RESTORE, RETT. -/
  wim : Bool
  /-- RDTBR, WRTBR. -/
  tbr : Bool
  /-- RDY, WRY and the nine multiply and divide instructions. -/
  y : Bool
  /-- SAVE, RESTORE, RETT. -/
  movesWindow : Bool
  /-- The privileged instructions of 60_exceptions.md rule R351. -/
  privileged : Bool
  /-- RETT. -/
  rett : Bool
  /-- A delayed control transfer: CALL, JMPL, RETT, any Bicc. -/
  dcti : Bool
  deriving DecidableEq, Repr

/-- An instruction that only names registers. -/
def Uses.plain (regs : List RegIdx) : Uses :=
  ⟨regs, false, false, false, false, false, false, false, false, false⟩

/-- The register field of operand 2. -/
def operand2Regs : Operand2 → List RegIdx
  | .reg rs2 => [rs2]
  | .imm _ => []

/-- The register field of a shift count. -/
def shiftCountRegs : ShiftCount → List RegIdx
  | .reg rs2 => [rs2]
  | .imm _ => []

/-- The register field of a Ticc operand. -/
def trapNumberRegs : TrapNumber → List RegIdx
  | .reg rs2 => [rs2]
  | .imm _ => []

/-- What each instruction touches. -/
def uses (i : Instr) : Uses :=
  match i with
  | .unimp _ _ | .nop =>
    .plain []
  | .sethi rd _ =>
    .plain [rd]
  | .ba _ _ | .bn _ _ =>
    { Uses.plain [] with dcti := true }
  | .bne _ _ | .be _ _ | .bg _ _ | .ble _ _ | .bge _ _ | .bl _ _ | .bgu _ _ | .bleu _ _ | .bcc _ _ | .bcs _ _
  | .bpos _ _ | .bneg _ _ | .bvc _ _ | .bvs _ _ =>
    { Uses.plain [] with dcti := true, icc := true }
  | .call _ =>
    { Uses.plain [15] with dcti := true }
  | .add rd rs1 op2 | .addcc rd rs1 op2 | .sub rd rs1 op2 | .subcc rd rs1 op2 | .taddcc rd rs1 op2
  | .taddcctv rd rs1 op2 | .tsubcc rd rs1 op2 | .tsubcctv rd rs1 op2 | .and rd rs1 op2 | .andcc rd rs1 op2
  | .or rd rs1 op2 | .orcc rd rs1 op2 | .xor rd rs1 op2 | .xorcc rd rs1 op2 | .andn rd rs1 op2
  | .andncc rd rs1 op2 | .orn rd rs1 op2 | .orncc rd rs1 op2 | .xnor rd rs1 op2 | .xnorcc rd rs1 op2
  | .ldsb rd rs1 op2 | .ldub rd rs1 op2 | .ldsh rd rs1 op2 | .lduh rd rs1 op2 | .ld rd rs1 op2 | .ldd rd rs1 op2
  | .stb rd rs1 op2 | .sth rd rs1 op2 | .st rd rs1 op2 | .std rd rs1 op2 | .ldstub rd rs1 op2 | .swap rd rs1 op2 =>
    .plain (rd :: rs1 :: operand2Regs op2)
  | .addx rd rs1 op2 | .addxcc rd rs1 op2 | .subx rd rs1 op2 | .subxcc rd rs1 op2 =>
    { Uses.plain (rd :: rs1 :: operand2Regs op2) with icc := true }
  | .sdiv rd rs1 op2 | .sdivcc rd rs1 op2 | .smul rd rs1 op2 | .smulcc rd rs1 op2 | .udiv rd rs1 op2
  | .udivcc rd rs1 op2 | .umul rd rs1 op2 | .umulcc rd rs1 op2 =>
    { Uses.plain (rd :: rs1 :: operand2Regs op2) with y := true }
  | .mulscc rd rs1 op2 =>
    { Uses.plain (rd :: rs1 :: operand2Regs op2) with y := true, icc := true }
  | .sll rd rs1 cnt | .srl rd rs1 cnt | .sra rd rs1 cnt =>
    .plain (rd :: rs1 :: shiftCountRegs cnt)
  | .jmpl rd rs1 op2 =>
    { Uses.plain (rd :: rs1 :: operand2Regs op2) with dcti := true }
  | .save rd rs1 op2 | .restore rd rs1 op2 =>
    { Uses.plain (rd :: rs1 :: operand2Regs op2) with wim := true, movesWindow := true }
  | .rett rs1 op2 =>
    { Uses.plain (rs1 :: operand2Regs op2) with wim := true, movesWindow := true, privileged := true, rett := true, dcti := true }
  | .ta rs1 num | .tn rs1 num =>
    .plain (rs1 :: trapNumberRegs num)
  | .tne rs1 num | .te rs1 num | .tg rs1 num | .tle rs1 num | .tge rs1 num | .tl rs1 num | .tgu rs1 num
  | .tleu rs1 num | .tcc rs1 num | .tcs rs1 num | .tpos rs1 num | .tneg rs1 num | .tvc rs1 num | .tvs rs1 num =>
    { Uses.plain (rs1 :: trapNumberRegs num) with icc := true }
  | .rdpsr rd =>
    { Uses.plain [rd] with psr := true, privileged := true }
  | .rdwim rd =>
    { Uses.plain [rd] with wim := true, privileged := true }
  | .rdtbr rd =>
    { Uses.plain [rd] with tbr := true, privileged := true }
  | .rdy rd =>
    { Uses.plain [rd] with y := true }
  | .rdasr rd _ =>
    .plain [rd]
  | .wrpsr rs1 op2 =>
    { Uses.plain (rs1 :: operand2Regs op2) with psr := true, privileged := true }
  | .wrwim rs1 op2 =>
    { Uses.plain (rs1 :: operand2Regs op2) with wim := true, privileged := true }
  | .wrtbr rs1 op2 =>
    { Uses.plain (rs1 :: operand2Regs op2) with tbr := true, privileged := true }
  | .wry rs1 op2 =>
    { Uses.plain (rs1 :: operand2Regs op2) with y := true }
  | .wrasr _ rs1 op2 =>
    .plain (rs1 :: operand2Regs op2)

/-- A register field that names r8 .. r31. -/
def Uses.namesWindowed (u : Uses) : Bool := u.regs.any fun r => decide (8 ≤ r.toNat)

/-- Row PSR of 70_reset_and_hazards.md rule R380(c). -/
def psrWindowRefuses (u : Uses) (p : Pending) : Bool :=
  p.psr != 0 &&
    (u.psr || (p.changed.icc && u.icc) || (p.changed.cwp && (u.namesWindowed || u.movesWindow)) ||
      (p.changed.s && u.privileged) || ((p.changed.et || p.changed.ps) && u.rett))

/-- The refusal of an instruction before it executes, if there is one. -/
def hazard (i : Instr) (s : State) : Option Refusal :=
  let u := uses i
  if u.dcti && s.dctiPrev == .cond then some .dctiCouple
  else if psrWindowRefuses u s.pending then some (.delayedWrite .psr)
  else if s.pending.wim != 0 && u.wim then some (.delayedWrite .wim)
  else if s.pending.tbr != 0 && u.tbr then some (.delayedWrite .tbr)
  else if s.pending.y != 0 && u.y then some (.delayedWrite .y)
  else none

end Sys2Proof.Machine
end

