-- ==== Sys2Proof/Machine/Step.lean ====
section
/-! DEFINITION. One step of the machine: one reset, one wait in error mode, one trap entry for an interrupt, or one
instruction (70_reset_and_hazards.md rule R385). -/

namespace Sys2Proof.Machine

/-- An instruction with the checks before it (70_reset_and_hazards.md rule R380(b)). -/
def runInstr (s : State) (i : Instr) : Result :=
  match hazard i s with
  | some r => .refused r
  | none => exec i s

/-- Fetch, decode and execute at PC. -/
def runAtPc (s : State) : Result := withFetch s (runInstr s)

/-- One step. Reset comes first (60_exceptions.md rule R322, priority 1), then error mode (rule R336), then the
interrupt test (rule R340), then the instruction at PC. -/
def step (s : State) : Host.Outcome State Fault Refusal :=
  match s.input.reset with
  | some image => .next (s.popInput.resetEntry image)
  | none =>
    let t := s.takeInput
    if s.errorMode then errorModeStep s t
    else withInterruptTest s.input.irl t (runAtPc t)

/-- s with an instruction's word where `step` fetches its next instruction. -/
def State.withFetchWord (s : State) (nbits w : Nat) : State :=
  s.loadWordAtPc (BitVec.ofNat 32 (w % 2 ^ nbits))

end Sys2Proof.Machine
end

