-- ==== Sys2Proof/Safety.lean ====
section
/-! DEFINITION. The terms the statements use: the invariant of every reachable state, the end of a run, and what one
state keeps of another. -/

namespace Sys2Proof.Machine

/-- What every reachable state satisfies: PC and nPC are multiples of 4 (10_state.md rules R31 and R32), CWP names a
window (rule R28), WIM has no bit for an absent window (rule R29), r0 and the absent windows hold nothing (rules R22 and
R25), memory is in its canonical form within the 2^32 bytes (20_memory.md rule R60). -/
structure State.Inv (s : State) : Prop where
  pcAligned : aligned 4 s.pc = true
  npcAligned : aligned 4 s.npc = true
  cwpLegal : s.psr.cwp.toNat < s.cfg.nwindows.toNat
  wimMasked : s.wim &&& windowMask s.cfg.nwindows = s.wim
  globalZero : s.regs.globals[0] = 0
  absentWindows : ∀ j : Fin 512, 16 * s.cfg.nwindows.toNat ≤ j.val → s.regs.windowed[j.val] = 0
  memCanonical : s.mem.wf = true
  memInSpace : ∀ c ∈ s.mem, c.1 < 2 ^ 32
  storedRising : risingAbove none s.storedTo = true

/-- The end of a run, a convention of the spec (00_scope.md rule R17): PC holds the address of a branch always to itself
and nPC = PC + 4. The machine goes on executing the branch. A machine in error mode is not at the end of its run
(60_exceptions.md rule R336), and an unpopulated address holds no word. -/
def State.atEnd (s : State) : Bool :=
  !s.errorMode && s.accessible s.pc 4 &&
    match decodeBytes s.cfg s.fetchBytes with
    | .instr (.ba _ disp22) => disp22 == 0 && s.npc == s.pc + 4
    | _ => false

/-- Every register of every window reads in t as in s, but those that are one of the physical registers listed. -/
def RegsKept (s t : State) (changed : List PhysReg) : Prop :=
  ∀ w i, physReg s.cfg.nwindows w i ∉ changed → t.readRegAt w i = s.readRegAt w i

/-- The physical register of x[i] in the current window. -/
def State.phys (s : State) (i : RegIdx) : PhysReg := physReg s.cfg.nwindows s.psr.cwp i

/-- x[i] reads v in t, or 0 when i is r0 (10_state.md rule R22). -/
def RegIs (t : State) (i : RegIdx) (v : Word) : Prop := t.readReg i = if i = 0 then 0 else v

/-- Memory, the record of the program's stores and the DMA writes under way are unchanged. -/
structure MemKept (s t : State) : Prop where
  bytes : ∀ a, t.readByte a = s.readByte a
  storedTo : t.storedTo = s.storedTo
  dmaPending : t.dmaPending = s.dmaPending

/-- What an address that held `old` holds after a list of writes, a later write replacing an earlier one. -/
def lastWrite (l : List (Word × Byte)) (a : Word) (old : Byte) : Byte :=
  match l.reverse.find? fun c => c.1 == a with
  | some c => c.2
  | none => old

/-- The n addresses from ea on, modulo 2^32. -/
def bytesFrom (ea : Word) (n : Nat) : List Word := (List.range n).map fun k => ea + BitVec.ofNat 32 k

/-- The program has stored to the n bytes at ea and no other new address. -/
def RecordsStore (s t : State) (ea : Word) (n : Nat) : Prop :=
  ∀ a : Word, a.toNat ∈ t.storedTo ↔ a.toNat ∈ s.storedTo ∨ a ∈ bytesFrom ea n

/-- Every byte outside the n bytes at ea reads as before, the program has since stored to those bytes, and the DMA writes
under way are unchanged. -/
structure MemKeptOutside (s t : State) (ea : Word) (n : Nat) : Prop where
  bytes : ∀ a, a ∉ bytesFrom ea n → t.readByte a = s.readByte a
  storedTo : RecordsStore s t ea n
  dmaPending : t.dmaPending = s.dmaPending

/-- The parameters, error mode, the environment's inputs and the free-value counter are unchanged. -/
structure HiddenKept (s t : State) : Prop where
  cfg : t.cfg = s.cfg
  errorMode : t.errorMode = s.errorMode
  inputs : t.inputs = s.inputs
  freeCount : t.freeCount = s.freeCount

/-- The state registers other than PSR are unchanged. -/
structure SpecialsKept (s t : State) : Prop where
  wim : t.wim = s.wim
  tbr : t.tbr = s.tbr
  y : t.y = s.y

/-- t is after one executed instruction that moves PC and nPC so and leaves that history: the delayed-write windows have
counted one instruction. -/
structure Completed (s t : State) (pc npc : Word) (d : DctiPrev) : Prop where
  pc : t.pc = pc
  npc : t.npc = npc
  dctiPrev : t.dctiPrev = d
  pending : t.pending = s.pending.tick

/-- `advance` (00_scope.md rule R13). -/
def Advanced (s t : State) : Prop := Completed s t s.npc (s.npc + 4) .none

/-- A trap raised now is taken: ET = 1, and no delayed-write window that the entry depends on is open. -/
structure TrapsTaken (s : State) : Prop where
  et : s.psr.et = true
  settled : s.modeOrWindowUnsettled = false
  tbr : s.pending.tbr = 0

/-- t is s after the entry of a trap of type tt (60_exceptions.md rule R330): tt written, ET = 0, PS = the old S, S = 1,
the window below entered, its r17 and r18 holding the old PC and nPC, PC at TBR and nPC after it, the history cleared,
and nothing else changed. -/
structure TrapEntered (s t : State) (tt : BitVec 8) : Prop where
  tbr : t.tbr = ⟨s.tbr.tba, tt⟩
  psr : t.psr = ⟨s.psr.icc, s.psr.pil, true, s.psr.s, false, prevWindow s.cfg.nwindows s.psr.cwp⟩
  r17 : t.readReg 17 = s.pc
  r18 : t.readReg 18 = s.npc
  regs : RegsKept s t [physReg s.cfg.nwindows t.psr.cwp 17, physReg s.cfg.nwindows t.psr.cwp 18]
  pc : t.pc = s.tbr.tba ++ tt ++ 0#4
  npc : t.npc = t.pc + 4
  dctiPrev : t.dctiPrev = .none
  pending : t.pending = s.pending
  wim : t.wim = s.wim
  y : t.y = s.y
  mem : MemKept s t
  hidden : HiddenKept s t

/-- t is s in error mode (60_exceptions.md rule R336): nothing changed but the flag and TBR.tt, which is any value. -/
def InErrorMode (s t : State) : Prop :=
  ∃ tt n, t = { s with errorMode := true, tbr := ⟨s.tbr.tba, tt⟩, freeCount := n }

/-! ## The forms of statement -/

/-- t is s after an instruction whose whole effect on the architectural state is x[rd] <- v, icc <- f, Y <- y and
`advance` (00_scope.md rule R13). -/
structure Yields (s t : State) (rd : RegIdx) (v : Word) (f : Icc) (y : Word) : Prop where
  result : RegIs t rd v
  regs : RegsKept s t [s.phys rd]
  psr : t.psr = { s.psr with icc := f }
  y : t.y = y
  wim : t.wim = s.wim
  tbr : t.tbr = s.tbr
  mem : MemKept s t
  hidden : HiddenKept s t
  pc : t.pc = s.npc
  npc : t.npc = s.npc + 4

/-- The same, with what the spec's decisions D20 and D21 make of the hidden state: the delayed-write windows have counted
one instruction and the history is cleared. -/
structure Computes (s t : State) (rd : RegIdx) (v : Word) (f : Icc) (y : Word) : Prop extends Yields s t rd v f y where
  dctiPrev : t.dctiPrev = .none
  pending : t.pending = s.pending.tick

/-- t is s after an instruction that only moves PC and nPC so. -/
structure OnlyMoves (s t : State) (pc npc : Word) (d : DctiPrev) : Prop where
  regs : RegsKept s t []
  psr : t.psr = s.psr
  specials : SpecialsKept s t
  mem : MemKept s t
  hidden : HiddenKept s t
  completed : Completed s t pc npc d

/-- t is s after an instruction that puts the address of the instruction in x[rd] and moves PC and nPC so. -/
structure Links (s t : State) (rd : RegIdx) (npc : Word) : Prop where
  result : RegIs t rd s.pc
  regs : RegsKept s t [s.phys rd]
  psr : t.psr = s.psr
  specials : SpecialsKept s t
  mem : MemKept s t
  hidden : HiddenKept s t
  completed : Completed s t s.npc npc .uncond

/-- t is s after an instruction that stores to the n bytes at ea, changes the listed registers and advances; what the
bytes then are the statement says itself. -/
structure Stores (s t : State) (ea : Word) (n : Nat) (changed : List PhysReg) : Prop where
  mem : MemKeptOutside s t ea n
  regs : RegsKept s t changed
  psr : t.psr = s.psr
  specials : SpecialsKept s t
  hidden : HiddenKept s t
  advanced : Advanced s t

/-- t is s after an instruction that moves CWP to w, writes v to x[rd] of that window and advances. -/
structure MovesWindow (s t : State) (w : BitVec 5) (rd : RegIdx) (v : Word) : Prop where
  psr : t.psr = { s.psr with cwp := w }
  result : RegIs t rd v
  regs : RegsKept s t [physReg s.cfg.nwindows w rd]
  specials : SpecialsKept s t
  mem : MemKept s t
  hidden : HiddenKept s t
  advanced : Advanced s t

/-- t is s after a write state register instruction that leaves those delayed-write windows: PC and nPC advance and
nothing else changes but the state registers, which the statement says itself. -/
structure WritesState (s t : State) (pending : Pending) : Prop where
  regs : RegsKept s t []
  mem : MemKept s t
  hidden : HiddenKept s t
  pc : t.pc = s.npc
  npc : t.npc = s.npc + 4
  dctiPrev : t.dctiPrev = .none
  pending : t.pending = pending

/-- Every word of format 3 with these op and op3, zero reserved bits and any operands decodes to k of its fields
(30_encoding.md rules R93 and R96). -/
def Encodes3 (cfg : Config) (op : BitVec 2) (op3 : BitVec 6) (k : RegIdx → RegIdx → Operand2 → Instr) : Prop :=
  ∀ rd rs1 : RegIdx,
    (∀ rs2 : RegIdx, decode cfg (op ++ rd ++ op3 ++ rs1 ++ 0#1 ++ (0#8 ++ rs2)) = .instr (k rd rs1 (.reg rs2))) ∧
      ∀ simm13 : BitVec 13, decode cfg (op ++ rd ++ op3 ++ rs1 ++ 1#1 ++ simm13) = .instr (k rd rs1 (.imm simm13))

/-- The same for an instruction without a destination register: its field rd is zero. -/
def Encodes3NoRd (cfg : Config) (op3 : BitVec 6) (k : RegIdx → Operand2 → Instr) : Prop :=
  ∀ rs1 : RegIdx,
    (∀ rs2 : RegIdx, decode cfg (2#2 ++ 0#5 ++ op3 ++ rs1 ++ 0#1 ++ (0#8 ++ rs2)) = .instr (k rs1 (.reg rs2))) ∧
      ∀ simm13 : BitVec 13, decode cfg (2#2 ++ 0#5 ++ op3 ++ rs1 ++ 1#1 ++ simm13) = .instr (k rs1 (.imm simm13))

/-- The same for a shift (30_encoding.md rule R102). -/
def EncodesShift (cfg : Config) (op3 : BitVec 6) (k : RegIdx → RegIdx → ShiftCount → Instr) : Prop :=
  ∀ rd rs1 : RegIdx,
    (∀ rs2 : RegIdx, decode cfg (2#2 ++ rd ++ op3 ++ rs1 ++ 0#1 ++ (0#8 ++ rs2)) = .instr (k rd rs1 (.reg rs2))) ∧
      ∀ shcnt : BitVec 5, decode cfg (2#2 ++ rd ++ op3 ++ rs1 ++ 1#1 ++ (0#8 ++ shcnt)) = .instr (k rd rs1 (.imm shcnt))

/-- What a word with a nonzero reserved field is, where i is the instruction without it (30_encoding.md rule R115). -/
def reservedOutcome (cfg : Config) (i : Instr) : Decoded :=
  match cfg.reservedPolicy with
  | .refuse => .rejected .reservedField
  | .ignore => .instr i

/-- What a data access of n bytes at ea does, in the order of 42_load_store.md rule R209: misaligned, then unpopulated,
it raises; else the instruction answers a next state with that effect. A byte access (n = 1) is never misaligned
(20_memory.md rule R64). -/
def Accesses (s : State) (n : Nat) (ea : Word) (r : Result) (effect : State → Prop) : Prop :=
  (ea.toNat % n ≠ 0 → r = raise .memAddressNotAligned s) ∧
    (ea.toNat % n = 0 → s.accessible ea n = false → r = raise .dataAccessException s) ∧
      (ea.toNat % n = 0 → s.accessible ea n = true → ∃ t, r = .next t ∧ effect t)

/-- The instructions that write icc (10_state.md rule R35). -/
def writesIcc : Instr → Bool
  | .addcc .. | .addxcc .. | .subcc .. | .subxcc .. | .taddcc .. | .taddcctv .. | .tsubcc .. | .tsubcctv .. => true
  | .mulscc .. | .umulcc .. | .smulcc .. | .udivcc .. | .sdivcc .. => true
  | .andcc .. | .andncc .. | .orcc .. | .orncc .. | .xorcc .. | .xnorcc .. | .wrpsr .. => true
  | _ => false

/-- The instructions that write Y (10_state.md rule R39). -/
def writesY : Instr → Bool
  | .mulscc .. | .umul .. | .umulcc .. | .smul .. | .smulcc .. | .wry .. => true
  | _ => false

/-- The instructions that store (20_memory.md rule R66). -/
def writesMemory : Instr → Bool
  | .stb .. | .sth .. | .st .. | .std .. | .ldstub .. | .swap .. => true
  | _ => false

/-- The write state register instructions, each of which opens a delayed-write window (46_state_register.md rule
R307). -/
def opensWindow : Instr → Bool
  | .wrpsr .. | .wrwim .. | .wrtbr .. | .wry .. => true
  | _ => false

/-! ### The rows of the delayed-write table

What 70_reset_and_hazards.md rule R380(c) says of each instruction, written from the table and not from `uses`. -/

/-- A register field that names r8 .. r31. -/
def isWindowed (r : RegIdx) : Bool := decide (8 ≤ r.toNat)

/-- rs2, when i = 0, names r8 .. r31. -/
def operand2Windowed : Operand2 → Bool
  | .reg rs2 => isWindowed rs2
  | .imm _ => false

/-- A register field of the instruction (rd, rs1, rs2 when i = 0, r15 for CALL) names r8 .. r31. -/
def namesWindowed : Instr → Bool
  | .unimp .. | .nop => false
  | .ba .. | .bn .. | .bne .. | .be .. | .bg .. | .ble .. | .bge .. | .bl .. | .bgu .. | .bleu .. | .bcc .. | .bcs ..
  | .bpos .. | .bneg .. | .bvc .. | .bvs .. => false
  | .call _ => true
  | .sethi rd _ | .rdpsr rd | .rdwim rd | .rdtbr rd | .rdy rd | .rdasr rd _ => isWindowed rd
  | .wrpsr rs1 op2 | .wrwim rs1 op2 | .wrtbr rs1 op2 | .wry rs1 op2 | .wrasr _ rs1 op2 | .rett rs1 op2 =>
    isWindowed rs1 || operand2Windowed op2
  | .ta rs1 num | .tn rs1 num | .tne rs1 num | .te rs1 num | .tg rs1 num | .tle rs1 num | .tge rs1 num | .tl rs1 num
  | .tgu rs1 num | .tleu rs1 num | .tcc rs1 num | .tcs rs1 num | .tpos rs1 num | .tneg rs1 num | .tvc rs1 num
  | .tvs rs1 num =>
    isWindowed rs1 || match num with
      | .reg rs2 => isWindowed rs2
      | .imm _ => false
  | .sll rd rs1 cnt | .srl rd rs1 cnt | .sra rd rs1 cnt =>
    isWindowed rd || isWindowed rs1 || match cnt with
      | .reg rs2 => isWindowed rs2
      | .imm _ => false
  | .add rd rs1 op2 | .addcc rd rs1 op2 | .addx rd rs1 op2 | .addxcc rd rs1 op2 | .sub rd rs1 op2 | .subcc rd rs1 op2
  | .subx rd rs1 op2 | .subxcc rd rs1 op2 | .taddcc rd rs1 op2 | .taddcctv rd rs1 op2 | .tsubcc rd rs1 op2
  | .tsubcctv rd rs1 op2 | .mulscc rd rs1 op2 | .umul rd rs1 op2 | .umulcc rd rs1 op2 | .smul rd rs1 op2
  | .smulcc rd rs1 op2 | .udiv rd rs1 op2 | .udivcc rd rs1 op2 | .sdiv rd rs1 op2 | .sdivcc rd rs1 op2
  | .and rd rs1 op2 | .andcc rd rs1 op2 | .or rd rs1 op2 | .orcc rd rs1 op2 | .xor rd rs1 op2 | .xorcc rd rs1 op2
  | .andn rd rs1 op2 | .andncc rd rs1 op2 | .orn rd rs1 op2 | .orncc rd rs1 op2 | .xnor rd rs1 op2
  | .xnorcc rd rs1 op2 | .ldsb rd rs1 op2 | .ldub rd rs1 op2 | .ldsh rd rs1 op2 | .lduh rd rs1 op2 | .ld rd rs1 op2
  | .ldd rd rs1 op2 | .stb rd rs1 op2 | .sth rd rs1 op2 | .st rd rs1 op2 | .std rd rs1 op2 | .ldstub rd rs1 op2
  | .swap rd rs1 op2 | .jmpl rd rs1 op2 | .save rd rs1 op2 | .restore rd rs1 op2 =>
    isWindowed rd || isWindowed rs1 || operand2Windowed op2

/-- Every Bicc and Ticc whose cond is not 1000 or 0000, ADDX, ADDXcc, SUBX, SUBXcc, MULScc. -/
def dependsOnIcc : Instr → Bool
  | .bne .. | .be .. | .bg .. | .ble .. | .bge .. | .bl .. | .bgu .. | .bleu .. | .bcc .. | .bcs .. | .bpos .. => true
  | .bneg .. | .bvc .. | .bvs .. | .tne .. | .te .. | .tg .. | .tle .. | .tge .. | .tl .. | .tgu .. | .tleu .. => true
  | .tcc .. | .tcs .. | .tpos .. | .tneg .. | .tvc .. | .tvs .. => true
  | .addx .. | .addxcc .. | .subx .. | .subxcc .. | .mulscc .. => true
  | _ => false

/-- The privileged instructions (60_exceptions.md rule R351). -/
def isPrivileged : Instr → Bool
  | .rett .. | .rdpsr .. | .rdwim .. | .rdtbr .. | .wrpsr .. | .wrwim .. | .wrtbr .. => true
  | _ => false

/-- The row of PSR. -/
def inPsrRow (c : PsrChanged) (i : Instr) : Bool :=
  match i with
  | .rdpsr .. | .wrpsr .. => true
  | .save .. | .restore .. => c.cwp
  | .rett .. => c.cwp || c.s || c.et || c.ps
  | _ => (c.icc && dependsOnIcc i) || (c.cwp && namesWindowed i) || (c.s && isPrivileged i)

/-- The row of WIM. -/
def inWimRow : Instr → Bool
  | .rdwim .. | .wrwim .. | .save .. | .restore .. | .rett .. => true
  | _ => false

/-- The row of TBR. -/
def inTbrRow : Instr → Bool
  | .rdtbr .. | .wrtbr .. => true
  | _ => false

/-- The row of Y. -/
def inYRow : Instr → Bool
  | .rdy .. | .wry .. | .mulscc .. | .umul .. | .umulcc .. | .smul .. | .smulcc .. => true
  | .udiv .. | .udivcc .. | .sdiv .. | .sdivcc .. => true
  | _ => false

/-- The instruction is in the row of a register whose window is open. -/
def inOpenRow (p : Pending) (i : Instr) : Bool :=
  (p.psr != 0 && inPsrRow p.changed i) || (p.wim != 0 && inWimRow i) || (p.tbr != 0 && inTbrRow i) ||
    (p.y != 0 && inYRow i)

/-- A delayed control transfer: CALL, JMPL, RETT, any Bicc (43_branch.md rule R240). -/
def isDelayedTransfer : Instr → Bool
  | .call .. | .jmpl .. | .rett .. => true
  | .ba .. | .bn .. | .bne .. | .be .. | .bg .. | .ble .. | .bge .. | .bl .. | .bgu .. | .bleu .. | .bcc .. => true
  | .bcs .. | .bpos .. | .bneg .. | .bvc .. | .bvs .. => true
  | _ => false

/-- The read state register instructions, whose words have unused bits (30_encoding.md rule R95). -/
def readsStateRegister : Instr → Bool
  | .rdpsr .. | .rdwim .. | .rdtbr .. | .rdy .. | .rdasr .. => true
  | _ => false

/-- The field cond of each condition (43_branch.md rule R231). -/
def condCode : Cond → BitVec 4
  | .a => 0b1000
  | .n => 0b0000
  | .ne => 0b1001
  | .e => 0b0001
  | .g => 0b1010
  | .le => 0b0010
  | .ge => 0b1011
  | .l => 0b0011
  | .gu => 0b1100
  | .leu => 0b0100
  | .cc => 0b1101
  | .cs => 0b0101
  | .pos => 0b1110
  | .neg => 0b0110
  | .vc => 0b1111
  | .vs => 0b0111

/-- The branch of each condition: the sixteen mnemonics BA to BVS (43_branch.md rules R241 to R256). -/
def branchOf : Cond → Bool → BitVec 22 → Instr
  | .a => .ba
  | .n => .bn
  | .ne => .bne
  | .e => .be
  | .g => .bg
  | .le => .ble
  | .ge => .bge
  | .l => .bl
  | .gu => .bgu
  | .leu => .bleu
  | .cc => .bcc
  | .cs => .bcs
  | .pos => .bpos
  | .neg => .bneg
  | .vc => .bvc
  | .vs => .bvs

/-- The trap instruction of each condition: the sixteen mnemonics TA to TVS (45_trap_instructions.md rules R282 to
R297). -/
def trapOf : Cond → RegIdx → TrapNumber → Instr
  | .a => .ta
  | .n => .tn
  | .ne => .tne
  | .e => .te
  | .g => .tg
  | .le => .tle
  | .ge => .tge
  | .l => .tl
  | .gu => .tgu
  | .leu => .tleu
  | .cc => .tcc
  | .cs => .tcs
  | .pos => .tpos
  | .neg => .tneg
  | .vc => .tvc
  | .vs => .tvs

end Sys2Proof.Machine
end

