-- ==== Sys2Proof/Certificates/Slice0/Obligations.lean ====
section
/-! DEFINITION. The statements for the provers. "raises T" is the operation `raise` (00_scope.md rule R12), of which
TrapEntryRule and ErrorModeRule say what it does. Each statement about an instruction says how its word decodes, that
`exec` answers a next state, what that state holds and what it keeps. D<n> after a rule names the spec's own decision
(92_eei_decisions.md) the rule takes; a log entry is notes/assumptions/<n>.md. Statements that rest on either are marked
`derived` in OBLIGATIONS.json. -/

section

open Sys2Proof Sys2Proof.Machine

/-! ## Encoding -/

/-- Every well-formed instruction, with every value of every operand and under every value of the parameters, is what
the decoder reads from its word (30_encoding.md rule R109). -/
def Obligations.DecodeInvertsEncode : Prop :=
  ∀ (cfg : Config) (i : Instr), i.wellFormed = true → decode cfg (encode cfg i) = .instr i

/-- Every word the decoder reads as an instruction reads as a well-formed one; and under RESERVED_POLICY = refuse it
is that instruction's own word, so that no bit of it is dropped, but for the unused bits of the read state register
instructions: of those bits 31:19 come back, and of RDY and RDASR the field rs1 (bits 18:14) too (30_encoding.md rules
R95, R109 and R115, D22 and D27). -/
def Obligations.DecodedWordIsTheEncoding : Prop :=
  ∀ (cfg : Config) (w : Word) (i : Instr), decode cfg w = .instr i →
    i.wellFormed = true ∧
      (cfg.reservedPolicy = .refuse → readsStateRegister i = false → encode cfg i = w) ∧
        (readsStateRegister i = true → (encode cfg i).extractLsb' 19 13 = w.extractLsb' 19 13) ∧
          ((∃ rd, i = .rdy rd) ∨ (∃ rd asr, i = .rdasr rd asr) →
            (encode cfg i).extractLsb' 14 5 = w.extractLsb' 14 5)

/-- Words the spec's examples write out decode, from their four bytes in memory order, to the instructions they stand
for, one for each family: add, tagged, multiply step, multiply, logical, shift, SETHI, load, store, branch, CALL,
JMPL, SAVE, RESTORE, Ticc, RETT, read and write state register. -/
def Obligations.SpecExampleWordsDecode : Prop :=
  decodeBytes .specDefault [0x86, 0x00, 0x40, 0x02] = .instr (.add 3 1 (.reg 2)) ∧
    decodeBytes .specDefault [0x87, 0x10, 0x40, 0x02] = .instr (.taddcctv 3 1 (.reg 2)) ∧
    decodeBytes .specDefault [0x87, 0x20, 0x40, 0x02] = .instr (.mulscc 3 1 (.reg 2)) ∧
    decodeBytes .specDefault [0x86, 0x48, 0x40, 0x02] = .instr (.smul 3 1 (.reg 2)) ∧
    decodeBytes .specDefault [0x86, 0xB0, 0x40, 0x02] = .instr (.orncc 3 1 (.reg 2)) ∧
    decodeBytes .specDefault [0x87, 0x38, 0x60, 0x04] = .instr (.sra 3 1 (.imm 4)) ∧
    decodeBytes .specDefault [0x31, 0x00, 0x20, 0x2A] = .instr (.sethi 24 8234) ∧
    decodeBytes .specDefault [0xC8, 0x00, 0x40, 0x02] = .instr (.ld 4 1 (.reg 2)) ∧
    decodeBytes .specDefault [0xC8, 0x20, 0x7F, 0xFC] = .instr (.st 4 1 (.imm (-4))) ∧
    decodeBytes .specDefault [0x26, 0xBF, 0xFF, 0xFC] = .instr (.bl true (-4)) ∧
    decodeBytes .specDefault [0x7F, 0xFF, 0xFF, 0xFC] = .instr (.call (-4)) ∧
    decodeBytes .specDefault [0x9F, 0xC0, 0x40, 0x02] = .instr (.jmpl 15 1 (.reg 2)) ∧
    decodeBytes .specDefault [0x9D, 0xE3, 0xBF, 0xA0] = .instr (.save 14 14 (.imm (-96))) ∧
    decodeBytes .specDefault [0xB9, 0xE9, 0x3F, 0xE2] = .instr (.restore 28 4 (.imm (-30))) ∧
    decodeBytes .specDefault [0x91, 0xD0, 0x20, 0x48] = .instr (.ta 0 (.imm 72)) ∧
    decodeBytes .specDefault [0x81, 0xCC, 0xA0, 0x04] = .instr (.rett 18 (.imm 4)) ∧
    decodeBytes .specDefault [0xAF, 0x48, 0x00, 0x00] = .instr (.rdpsr 23) ∧
    decodeBytes .specDefault [0x81, 0x94, 0x20, 0x37] = .instr (.wrwim 16 (.imm 55))

/-- The encodings outside the opcode table: unassigned op2 and op3 are illegal (30_encoding.md rule R118), the op3
pair of the signed multiply that SMUL_OP3 does not select among them (rule R106, D24, log entry 15), alternate space
loads and stores and FLUSH refused (rules R120 and R121), all D14, the floating-point and coprocessor encodings take
the traps rule R119 offers (log entry 5). -/
def Obligations.EncodingsOutsideTheTable : Prop :=
  ∀ (cfg : Config) (rd : BitVec 5) (low : BitVec 22) (rest : BitVec 19),
    (∀ op2 ∈ [0b001#3, 0b011, 0b101], decode cfg (0#2 ++ rd ++ op2 ++ low) = .illegal) ∧
    (∀ op3 ∈ [0x0D#6, 0x1D, 0x2C, 0x2D, 0x2E, 0x2F, 0x3E, 0x3F], decode cfg (2#2 ++ rd ++ op3 ++ rest) = .illegal) ∧
    (∀ op3 ∈ [0x08#6, 0x0B, 0x0C, 0x0E, 0x18, 0x1B, 0x1C, 0x1E, 0x22, 0x28, 0x29, 0x2A, 0x2B, 0x2C, 0x2D, 0x2E, 0x2F,
      0x32, 0x38, 0x39, 0x3A, 0x3B, 0x3C, 0x3D, 0x3E, 0x3F], decode cfg (3#2 ++ rd ++ op3 ++ rest) = .illegal) ∧
    (∀ op3 ∈ [0x10#6, 0x11, 0x12, 0x13, 0x14, 0x15, 0x16, 0x17, 0x19, 0x1A, 0x1D, 0x1F],
      decode cfg (3#2 ++ rd ++ op3 ++ rest) = .rejected .alternateSpace) ∧
    decode cfg (0#2 ++ rd ++ 0b110#3 ++ low) = .fpDisabled ∧
    decode cfg (0#2 ++ rd ++ 0b111#3 ++ low) = .cpDisabled ∧
    (∀ op3 ∈ [0x34#6, 0x35], decode cfg (2#2 ++ rd ++ op3 ++ rest) = .fpDisabled) ∧
    (∀ op3 ∈ [0x36#6, 0x37], decode cfg (2#2 ++ rd ++ op3 ++ rest) = .cpDisabled) ∧
    (∀ op3 ∈ [0x20#6, 0x21, 0x23, 0x24, 0x25, 0x26, 0x27], decode cfg (3#2 ++ rd ++ op3 ++ rest) = .fpDisabled) ∧
    (∀ op3 ∈ [0x30#6, 0x31, 0x33, 0x34, 0x35, 0x36, 0x37], decode cfg (3#2 ++ rd ++ op3 ++ rest) = .cpDisabled) ∧
    (cfg.smulOp3 = .source → ∀ op3 ∈ [0x0B#6, 0x1B], decode cfg (2#2 ++ rd ++ op3 ++ rest) = .illegal) ∧
    (cfg.smulOp3 = .published → ∀ op3 ∈ [0x09#6, 0x19], decode cfg (2#2 ++ rd ++ op3 ++ rest) = .illegal) ∧
    decode cfg (2#2 ++ rd ++ 0x3B#6 ++ rest) = .rejected .flush

/-- A word with a nonzero reserved field (30_encoding.md rule R115, D22) is refused under RESERVED_POLICY = refuse and
is the instruction without it under RESERVED_POLICY = ignore: bits 12:5 of a register form, where a read of a state
register ignores them under both; bits 12:5 of an immediate shift; bit 29 and bits 12:5 or 12:7 of Ticc; the field rd
of RETT, WRPSR, WRWIM and WRTBR. -/
def Obligations.ReservedFieldFollowsPolicy : Prop :=
  (∀ (cfg : Config) (op : BitVec 2) (rd rs1 rs2 : BitVec 5) (op3 : BitVec 6) (bits : BitVec 8) (i : Instr),
    (op = 2 ∨ op = 3) → bits ≠ 0 →
    decode cfg (op ++ rd ++ op3 ++ rs1 ++ 0#1 ++ (0#8 ++ rs2)) = .instr i →
      decode cfg (op ++ rd ++ op3 ++ rs1 ++ 0#1 ++ (bits ++ rs2)) =
        if readsStateRegister i then .instr i else reservedOutcome cfg i) ∧
  (∀ (cfg : Config) (rd rs1 shcnt : BitVec 5) (bits : BitVec 8), bits ≠ 0 →
    let word := fun op3 : BitVec 6 => 2#2 ++ rd ++ op3 ++ rs1 ++ 1#1 ++ (bits ++ shcnt)
    decode cfg (word 0x25) = reservedOutcome cfg (.sll rd rs1 (.imm shcnt)) ∧
    decode cfg (word 0x26) = reservedOutcome cfg (.srl rd rs1 (.imm shcnt)) ∧
    decode cfg (word 0x27) = reservedOutcome cfg (.sra rd rs1 (.imm shcnt))) ∧
  (∀ (cfg : Config) (k : Cond) (rs1 rs2 : BitVec 5) (imm7 : BitVec 7) (b : BitVec 1) (bits8 : BitVec 8)
      (bits6 : BitVec 6),
    (b ≠ 0 ∨ bits8 ≠ 0 →
      decode cfg (2#2 ++ (b ++ condCode k) ++ 0x3A#6 ++ rs1 ++ 0#1 ++ (bits8 ++ rs2)) =
        reservedOutcome cfg (trapOf k rs1 (.reg rs2))) ∧
    (b ≠ 0 ∨ bits6 ≠ 0 →
      decode cfg (2#2 ++ (b ++ condCode k) ++ 0x3A#6 ++ rs1 ++ 1#1 ++ (bits6 ++ imm7)) =
        reservedOutcome cfg (trapOf k rs1 (.imm imm7)))) ∧
  ∀ (cfg : Config) (rd rs1 rs2 : BitVec 5) (bits : BitVec 8) (simm13 : BitVec 13),
    let reg := fun op3 : BitVec 6 => 2#2 ++ rd ++ op3 ++ rs1 ++ 0#1 ++ (bits ++ rs2)
    let imm := fun op3 : BitVec 6 => 2#2 ++ rd ++ op3 ++ rs1 ++ 1#1 ++ simm13
    (rd ≠ 0 ∨ bits ≠ 0 →
      decode cfg (reg 0x39) = reservedOutcome cfg (.rett rs1 (.reg rs2)) ∧
      decode cfg (reg 0x31) = reservedOutcome cfg (.wrpsr rs1 (.reg rs2)) ∧
      decode cfg (reg 0x32) = reservedOutcome cfg (.wrwim rs1 (.reg rs2)) ∧
      decode cfg (reg 0x33) = reservedOutcome cfg (.wrtbr rs1 (.reg rs2))) ∧
    (rd ≠ 0 →
      decode cfg (imm 0x39) = reservedOutcome cfg (.rett rs1 (.imm simm13)) ∧
      decode cfg (imm 0x31) = reservedOutcome cfg (.wrpsr rs1 (.imm simm13)) ∧
      decode cfg (imm 0x32) = reservedOutcome cfg (.wrwim rs1 (.imm simm13)) ∧
      decode cfg (imm 0x33) = reservedOutcome cfg (.wrtbr rs1 (.imm simm13)))

/-! ## Operands -/

/-- Operand 2 is a register or the sign-extended immediate, and the effective address is its sum with x[rs1] modulo
2^32 (00_scope.md rule R10; 42_load_store.md rule R201, D10); x[0] reads zero. -/
def Obligations.OperandTwoAndAddress : Prop :=
  ∀ (s : State) (rs1 rs2 : RegIdx) (simm13 : BitVec 13),
    s.op2val (.reg rs2) = s.readReg rs2 ∧
    (s.op2val (.imm simm13)).toInt = simm13.toInt ∧
    (s.address rs1 (.reg rs2)).toNat = ((s.readReg rs1).toNat + (s.readReg rs2).toNat) % 2 ^ 32 ∧
    (s.address rs1 (.imm simm13)).toInt = ((s.readReg rs1).toInt + simm13.toInt).bmod (2 ^ 32) ∧
    s.readReg 0 = 0

/-! ## Arithmetic -/

/-- ADD, ADDcc, ADDX, ADDXcc, SUB, SUBX (40_arithmetic.md rules R133 to R137 and R139). -/
def Obligations.AddAndSubtractRules : Prop :=
  (∀ cfg, Encodes3 cfg 2 0b000000 .add ∧ Encodes3 cfg 2 0b010000 .addcc ∧ Encodes3 cfg 2 0b001000 .addx ∧
    Encodes3 cfg 2 0b011000 .addxcc ∧ Encodes3 cfg 2 0b000100 .sub ∧ Encodes3 cfg 2 0b001100 .subx) ∧
  ∀ (s : State) (rd rs1 : RegIdx) (op2 : Operand2),
    let a := s.readReg rs1
    let b := s.op2val op2
    let carry := s.psr.icc.c
    let c : Word := if carry then 1 else 0
    (∃ t, exec (.add rd rs1 op2) s = .next t ∧ Yields s t rd (a + b) s.psr.icc s.y) ∧
    (∃ t, exec (.addcc rd rs1 op2) s = .next t ∧ Yields s t rd (a + b) (addFlags a b false) s.y) ∧
    (∃ t, exec (.addx rd rs1 op2) s = .next t ∧ Yields s t rd (a + b + c) s.psr.icc s.y) ∧
    (∃ t, exec (.addxcc rd rs1 op2) s = .next t ∧ Yields s t rd (a + b + c) (addFlags a b carry) s.y) ∧
    (∃ t, exec (.sub rd rs1 op2) s = .next t ∧ Yields s t rd (a - b) s.psr.icc s.y) ∧
    (∃ t, exec (.subx rd rs1 op2) s = .next t ∧ Yields s t rd (a - b - c) s.psr.icc s.y)

/-- SUBcc and SUBXcc (40_arithmetic.md section 2). That C is the borrow is the spec's own inference (section 1,
subtraction). -/
def Obligations.SubtractFlagRules : Prop :=
  (∀ cfg, Encodes3 cfg 2 0b010100 .subcc ∧ Encodes3 cfg 2 0b011100 .subxcc) ∧
  ∀ (s : State) (rd rs1 : RegIdx) (op2 : Operand2),
    let a := s.readReg rs1
    let b := s.op2val op2
    let carry := s.psr.icc.c
    let c : Word := if carry then 1 else 0
    (∃ t, exec (.subcc rd rs1 op2) s = .next t ∧ Computes s t rd (a - b) (subFlags a b false) s.y) ∧
    (∃ t, exec (.subxcc rd rs1 op2) s = .next t ∧ Computes s t rd (a - b - c) (subFlags a b carry) s.y)

/-- TADDcc and TADDccTV (40_arithmetic.md rules R142 and R143). -/
def Obligations.TaggedAddRules : Prop :=
  (∀ cfg, Encodes3 cfg 2 0b100000 .taddcc ∧ Encodes3 cfg 2 0b100010 .taddcctv) ∧
  ∀ (s : State) (rd rs1 : RegIdx) (op2 : Operand2),
    let a := s.readReg rs1
    let b := s.op2val op2
    let bad := a.getLsbD 0 || a.getLsbD 1 || b.getLsbD 0 || b.getLsbD 1
    let f := addFlags a b false
    (∃ t, exec (.taddcc rd rs1 op2) s = .next t ∧ Yields s t rd (a + b) ⟨f.n, f.z, f.v || bad, f.c⟩ s.y) ∧
    ((f.v || bad) = true → exec (.taddcctv rd rs1 op2) s = raise .tagOverflow s) ∧
    ((f.v || bad) = false →
      ∃ t, exec (.taddcctv rd rs1 op2) s = .next t ∧ Yields s t rd (a + b) ⟨f.n, f.z, false, f.c⟩ s.y)

/-- TSUBcc and TSUBccTV (40_arithmetic.md section 3). C as in SubtractFlagRules. -/
def Obligations.TaggedSubtractRules : Prop :=
  (∀ cfg, Encodes3 cfg 2 0b100001 .tsubcc ∧ Encodes3 cfg 2 0b100011 .tsubcctv) ∧
  ∀ (s : State) (rd rs1 : RegIdx) (op2 : Operand2),
    let a := s.readReg rs1
    let b := s.op2val op2
    let bad := a.getLsbD 0 || a.getLsbD 1 || b.getLsbD 0 || b.getLsbD 1
    let g := subFlags a b false
    (∃ t, exec (.tsubcc rd rs1 op2) s = .next t ∧ Computes s t rd (a - b) ⟨g.n, g.z, g.v || bad, g.c⟩ s.y) ∧
    ((g.v || bad) = true → exec (.tsubcctv rd rs1 op2) s = raise .tagOverflow s) ∧
    ((g.v || bad) = false →
      ∃ t, exec (.tsubcctv rd rs1 op2) s = .next t ∧ Computes s t rd (a - b) ⟨g.n, g.z, false, g.c⟩ s.y)

/-- MULScc (40_arithmetic.md rule R147, D6, D7 and D33). -/
def Obligations.MultiplyStepRule : Prop :=
  (∀ cfg, Encodes3 cfg 2 0b100100 .mulscc) ∧
  ∀ (s : State) (rd rs1 : RegIdx) (op2 : Operand2),
    let a := s.readReg rs1
    let op1 : Word := BitVec.ofBool (s.psr.icc.n ^^ s.psr.icc.v) ++ a.extractLsb' 1 31
    let addend : Word := if s.y.getLsbD 0 then s.op2val op2 else 0
    ∃ t, exec (.mulscc rd rs1 op2) s = .next t ∧
      Computes s t rd (op1 + addend) (addFlags op1 addend false) (a.extractLsb' 0 1 ++ s.y.extractLsb' 1 31)

/-- UMUL, UMULcc, SMUL, SMULcc (40_arithmetic.md rules R148 to R151, D7 and D24), with op3 of the signed ones the
parameter SMUL_OP3. -/
def Obligations.MultiplyRules : Prop :=
  (∀ cfg, Encodes3 cfg 2 0b001010 .umul ∧ Encodes3 cfg 2 0b011010 .umulcc ∧
    (cfg.smulOp3 = .source → Encodes3 cfg 2 0b001001 .smul ∧ Encodes3 cfg 2 0b011001 .smulcc) ∧
    (cfg.smulOp3 = .published → Encodes3 cfg 2 0b001011 .smul ∧ Encodes3 cfg 2 0b011011 .smulcc)) ∧
  ∀ (s : State) (rd rs1 : RegIdx) (op2 : Operand2),
    let a := s.readReg rs1
    let b := s.op2val op2
    let p := BitVec.ofNat 64 (a.toNat * b.toNat)
    let q := BitVec.ofInt 64 (a.toInt * b.toInt)
    let pl := p.extractLsb' 0 32
    let ql := q.extractLsb' 0 32
    (∃ t, exec (.umul rd rs1 op2) s = .next t ∧ Computes s t rd pl s.psr.icc (p.extractLsb' 32 32)) ∧
    (∃ t, exec (.umulcc rd rs1 op2) s = .next t ∧
      Computes s t rd pl ⟨p.getLsbD 31, pl == 0, false, false⟩ (p.extractLsb' 32 32)) ∧
    (∃ t, exec (.smul rd rs1 op2) s = .next t ∧ Computes s t rd ql s.psr.icc (q.extractLsb' 32 32)) ∧
    (∃ t, exec (.smulcc rd rs1 op2) s = .next t ∧
      Computes s t rd ql ⟨q.getLsbD 31, ql == 0, false, false⟩ (q.extractLsb' 32 32))

/-- UDIV, UDIVcc, SDIV, SDIVcc (40_arithmetic.md rules R152 to R155, D7). -/
def Obligations.DivideRules : Prop :=
  (∀ cfg, Encodes3 cfg 2 0b001110 .udiv ∧ Encodes3 cfg 2 0b011110 .udivcc ∧ Encodes3 cfg 2 0b001111 .sdiv ∧
    Encodes3 cfg 2 0b011111 .sdivcc) ∧
  ∀ (s : State) (rd rs1 : RegIdx) (op2 : Operand2),
    let a := s.readReg rs1
    let b := s.op2val op2
    let q := (s.y.toNat * 2 ^ 32 + a.toNat) / b.toNat
    let ovf := decide (0xFFFFFFFF < q)
    let r : Word := if ovf then 0xFFFFFFFF else BitVec.ofNat 32 q
    let p := (s.y.toInt * 2 ^ 32 + a.toNat).tdiv b.toInt
    let ovfS := decide (p > 2 ^ 31 - 1) || decide (p < -(2 ^ 31))
    let rS : Word := if p > 2 ^ 31 - 1 then 0x7FFFFFFF else if p < -(2 ^ 31) then 0x80000000 else BitVec.ofInt 32 p
    (b = 0 → exec (.udiv rd rs1 op2) s = raise .divisionByZero s ∧
      exec (.udivcc rd rs1 op2) s = raise .divisionByZero s ∧
      exec (.sdiv rd rs1 op2) s = raise .divisionByZero s ∧ exec (.sdivcc rd rs1 op2) s = raise .divisionByZero s) ∧
    (b ≠ 0 →
      (∃ t, exec (.udiv rd rs1 op2) s = .next t ∧ Computes s t rd r s.psr.icc s.y) ∧
      (∃ t, exec (.udivcc rd rs1 op2) s = .next t ∧ Computes s t rd r ⟨r.getLsbD 31, r == 0, ovf, false⟩ s.y) ∧
      (∃ t, exec (.sdiv rd rs1 op2) s = .next t ∧ Computes s t rd rS s.psr.icc s.y) ∧
      (∃ t, exec (.sdivcc rd rs1 op2) s = .next t ∧ Computes s t rd rS ⟨rS.getLsbD 31, rS == 0, ovfS, false⟩ s.y))

/-- The flags of an addition (40_arithmetic.md rule R131). -/
def Obligations.AdditionFlags : Prop :=
  ∀ (a b : Word) (cin : Bool),
    let total := a.toNat + b.toNat + (if cin then 1 else 0)
    let r := BitVec.ofNat 32 total
    addFlags a b cin =
      { n := r.getLsbD 31
        z := decide (r = 0)
        v := decide (a.getLsbD 31 = b.getLsbD 31 ∧ r.getLsbD 31 ≠ a.getLsbD 31)
        c := decide (2 ^ 32 ≤ total) }

/-- The flags of a subtraction (40_arithmetic.md rule R132); that C is the borrow is the spec's own inference from the
branch conditions. -/
def Obligations.SubtractionFlags : Prop :=
  ∀ (a b : Word) (bin : Bool),
    let diff : Int := a.toNat - b.toNat - (if bin then 1 else 0)
    let r := BitVec.ofInt 32 diff
    subFlags a b bin =
      { n := r.getLsbD 31
        z := decide (r = 0)
        v := decide (a.getLsbD 31 ≠ b.getLsbD 31 ∧ r.getLsbD 31 ≠ a.getLsbD 31)
        c := decide (diff < 0) }

/-- What the flags are for (40_arithmetic.md rules R131, R132 and R156): V is set exactly when the signed result does
not fit 32 bits, C exactly when the unsigned one does not; and the result whose flags they are is the one the
instruction writes. -/
def Obligations.FlagsMeanOverflow : Prop :=
  ∀ (a b : Word) (c : Bool),
    let k : Word := if c then 1 else 0
    let i : Int := if c then 1 else 0
    ((addFlags a b c).v = true ↔ (a + b + k).toInt ≠ a.toInt + b.toInt + i) ∧
    ((addFlags a b c).c = true ↔ ((a + b + k).toNat : Int) ≠ a.toNat + b.toNat + i) ∧
    ((subFlags a b c).v = true ↔ (a - b - k).toInt ≠ a.toInt - b.toInt - i) ∧
    ((subFlags a b c).c = true ↔ ((a - b - k).toNat : Int) ≠ a.toNat - b.toNat - i) ∧
    (addFlags a b c).n = (a + b + k).msb ∧ (addFlags a b c).z = decide (a + b + k = 0) ∧
    (subFlags a b c).n = (a - b - k).msb ∧ (subFlags a b c).z = decide (a - b - k = 0)

/-- The quotient of UDIV is the floor, and the divide overflows exactly when the high word of the dividend is at least
the divisor; SDIV rounds toward zero (40_arithmetic.md rules R152, R154 and R156, D7). -/
def Obligations.QuotientsDivide : Prop :=
  ∀ (y a b : Word), b ≠ 0 →
    ((unsignedQuotient y a b).2 = true ↔ b.toNat ≤ y.toNat) ∧
    ((unsignedQuotient y a b).2 = false →
      (unsignedQuotient y a b).1.toNat * b.toNat ≤ y.toNat * 2 ^ 32 + a.toNat ∧
        y.toNat * 2 ^ 32 + a.toNat < ((unsignedQuotient y a b).1.toNat + 1) * b.toNat) ∧
    ((signedQuotient y a b).2 = false →
      ((signedQuotient y a b).1.toInt * b.toInt).natAbs ≤ (y ++ a).toInt.natAbs ∧
        ((y ++ a).toInt - (signedQuotient y a b).1.toInt * b.toInt).natAbs < b.toInt.natAbs)

/-- The low word of a product does not depend on signedness, and the two words together are the exact product
(40_arithmetic.md rules R150 and R156, D7). -/
def Obligations.ProductWords : Prop :=
  ∀ (a b : Word),
    lowWord (signedProduct a b) = lowWord (unsignedProduct a b) ∧
    (highWord (unsignedProduct a b)).toNat * 2 ^ 32 + (lowWord (unsignedProduct a b)).toNat = a.toNat * b.toNat ∧
    (highWord (signedProduct a b)).toInt * 2 ^ 32 + (lowWord (signedProduct a b)).toNat = a.toInt * b.toInt

/-! ## Logical, shift, SETHI, NOP -/

/-- AND, OR, XOR, ANDN, ORN, XNOR (41_logical_shift_sethi.md rules R171, R173, R175, R177, R179 and R181). -/
def Obligations.LogicalRules : Prop :=
  (∀ cfg, Encodes3 cfg 2 0b000001 .and ∧ Encodes3 cfg 2 0b000010 .or ∧ Encodes3 cfg 2 0b000011 .xor ∧
    Encodes3 cfg 2 0b000101 .andn ∧ Encodes3 cfg 2 0b000110 .orn ∧ Encodes3 cfg 2 0b000111 .xnor) ∧
  ∀ (s : State) (rd rs1 : RegIdx) (op2 : Operand2),
    let a := s.readReg rs1
    let b := s.op2val op2
    (∃ t, exec (.and rd rs1 op2) s = .next t ∧ Yields s t rd (a &&& b) s.psr.icc s.y) ∧
    (∃ t, exec (.or rd rs1 op2) s = .next t ∧ Yields s t rd (a ||| b) s.psr.icc s.y) ∧
    (∃ t, exec (.xor rd rs1 op2) s = .next t ∧ Yields s t rd (a ^^^ b) s.psr.icc s.y) ∧
    (∃ t, exec (.andn rd rs1 op2) s = .next t ∧ Yields s t rd (a &&& ~~~b) s.psr.icc s.y) ∧
    (∃ t, exec (.orn rd rs1 op2) s = .next t ∧ Yields s t rd (a ||| ~~~b) s.psr.icc s.y) ∧
    (∃ t, exec (.xnor rd rs1 op2) s = .next t ∧ Yields s t rd (~~~(a ^^^ b)) s.psr.icc s.y)

/-- ANDcc, ORcc, XORcc, ANDNcc, ORNcc, XNORcc (41_logical_shift_sethi.md sections 1 and 2). V = 0 and C = 0 are the
spec's own decision D8. -/
def Obligations.LogicalFlagRules : Prop :=
  (∀ cfg, Encodes3 cfg 2 0b010001 .andcc ∧ Encodes3 cfg 2 0b010010 .orcc ∧ Encodes3 cfg 2 0b010011 .xorcc ∧
    Encodes3 cfg 2 0b010101 .andncc ∧ Encodes3 cfg 2 0b010110 .orncc ∧ Encodes3 cfg 2 0b010111 .xnorcc) ∧
  ∀ (s : State) (rd rs1 : RegIdx) (op2 : Operand2),
    let a := s.readReg rs1
    let b := s.op2val op2
    let flags := fun r : Word => (⟨r.getLsbD 31, r == 0, false, false⟩ : Icc)
    (∃ t, exec (.andcc rd rs1 op2) s = .next t ∧ Computes s t rd (a &&& b) (flags (a &&& b)) s.y) ∧
    (∃ t, exec (.orcc rd rs1 op2) s = .next t ∧ Computes s t rd (a ||| b) (flags (a ||| b)) s.y) ∧
    (∃ t, exec (.xorcc rd rs1 op2) s = .next t ∧ Computes s t rd (a ^^^ b) (flags (a ^^^ b)) s.y) ∧
    (∃ t, exec (.andncc rd rs1 op2) s = .next t ∧ Computes s t rd (a &&& ~~~b) (flags (a &&& ~~~b)) s.y) ∧
    (∃ t, exec (.orncc rd rs1 op2) s = .next t ∧ Computes s t rd (a ||| ~~~b) (flags (a ||| ~~~b)) s.y) ∧
    (∃ t, exec (.xnorcc rd rs1 op2) s = .next t ∧ Computes s t rd (~~~(a ^^^ b)) (flags (~~~(a ^^^ b))) s.y)

/-- SLL, SRL, SRA (41_logical_shift_sethi.md rules R184 to R187): the count is the low five bits, as multiplication
and division of the unsigned and signed value. -/
def Obligations.ShiftRules : Prop :=
  (∀ cfg, EncodesShift cfg 0b100101 .sll ∧ EncodesShift cfg 0b100110 .srl ∧ EncodesShift cfg 0b100111 .sra) ∧
  ∀ (s : State) (rd rs1 : RegIdx) (cnt : ShiftCount),
    let a := s.readReg rs1
    let n := match cnt with
      | .reg rs2 => (s.readReg rs2).toNat % 32
      | .imm shcnt => shcnt.toNat
    (∃ t, exec (.sll rd rs1 cnt) s = .next t ∧
      Yields s t rd (BitVec.ofNat 32 (a.toNat * 2 ^ n)) s.psr.icc s.y) ∧
    (∃ t, exec (.srl rd rs1 cnt) s = .next t ∧
      Yields s t rd (BitVec.ofNat 32 (a.toNat / 2 ^ n)) s.psr.icc s.y) ∧
    (∃ t, exec (.sra rd rs1 cnt) s = .next t ∧
      Yields s t rd (BitVec.ofInt 32 (a.toInt / 2 ^ n)) s.psr.icc s.y)

/-- SETHI and NOP (41_logical_shift_sethi.md rules R190 and R191; op2 is D23). -/
def Obligations.SethiAndNopRules : Prop :=
  (∀ (cfg : Config) (rd : RegIdx) (imm22 : BitVec 22), ¬(rd = 0 ∧ imm22 = 0) →
    decode cfg (0#2 ++ rd ++ 0b100#3 ++ imm22) = .instr (.sethi rd imm22)) ∧
  (∀ cfg, decode cfg 0x01000000 = .instr .nop) ∧
  ∀ (s : State) (rd : RegIdx) (imm22 : BitVec 22),
    (∃ t, exec (.sethi rd imm22) s = .next t ∧
      Computes s t rd (BitVec.ofNat 32 (imm22.toNat * 1024)) s.psr.icc s.y) ∧
    (∃ t, exec .nop s = .next t ∧ OnlyMoves s t s.npc (s.npc + 4) .none) ∧
    exec (.sethi 0 0) s = exec .nop s

/-! ## Memory -/

/-- LDSB, LDUB, LDSH, LDUH, LD (42_load_store.md rules R202 to R206 and R208; D9, D10 and D30; log entry 8). -/
def Obligations.LoadRules : Prop :=
  (∀ cfg, Encodes3 cfg 3 0b001001 .ldsb ∧ Encodes3 cfg 3 0b000001 .ldub ∧ Encodes3 cfg 3 0b001010 .ldsh ∧
    Encodes3 cfg 3 0b000010 .lduh ∧ Encodes3 cfg 3 0b000000 .ld) ∧
  ∀ (s : State) (rd rs1 : RegIdx) (op2 : Operand2),
    let ea := s.readReg rs1 + s.op2val op2
    let b0 := s.readByte ea
    let b1 := s.readByte (ea + 1)
    let half : BitVec 16 := b0 ++ b1
    let word : Word := b0 ++ b1 ++ s.readByte (ea + 2) ++ s.readByte (ea + 3)
    Accesses s 1 ea (exec (.ldsb rd rs1 op2) s) (fun t => Computes s t rd (b0.signExtend 32) s.psr.icc s.y) ∧
    Accesses s 1 ea (exec (.ldub rd rs1 op2) s) (fun t => Computes s t rd (b0.setWidth 32) s.psr.icc s.y) ∧
    Accesses s 2 ea (exec (.ldsh rd rs1 op2) s) (fun t => Computes s t rd (half.signExtend 32) s.psr.icc s.y) ∧
    Accesses s 2 ea (exec (.lduh rd rs1 op2) s) (fun t => Computes s t rd (half.setWidth 32) s.psr.icc s.y) ∧
    Accesses s 4 ea (exec (.ld rd rs1 op2) s) (fun t => Computes s t rd word s.psr.icc s.y)

/-- LDD (42_load_store.md rule R207, D11; 20_memory.md rule R67, D12; log entries 8 and 10): with rd even the pair rd
and rd + 1 is loaded, r0 discarding its word. The DMA writes under way land between the two words: the first word is
the old one, the second is what memory then holds. -/
def Obligations.LoadDoubleRule : Prop :=
  (∀ cfg, Encodes3 cfg 3 0b000011 .ldd) ∧
  ∀ (s : State) (rd rs1 : RegIdx) (op2 : Operand2),
    let ea := s.readReg rs1 + s.op2val op2
    (rd.toNat % 2 = 1 → exec (.ldd rd rs1 op2) s = raise .illegalInstruction s) ∧
    (rd.toNat % 2 = 0 →
      Accesses s 8 ea (exec (.ldd rd rs1 op2) s) fun t =>
        RegIs t rd (s.readWord ea) ∧ RegIs t (rd + 1) (t.readWord (ea + 4)) ∧
        (∀ a, t.readByte a = lastWrite s.dmaPending a (s.readByte a)) ∧ t.dmaPending = [] ∧
        t.storedTo = s.storedTo ∧ (s.dmaPending = [] → MemKept s t) ∧
        RegsKept s t [s.phys rd, s.phys (rd + 1)] ∧ t.psr = s.psr ∧ SpecialsKept s t ∧ HiddenKept s t ∧ Advanced s t)

/-- STB, STH, ST (42_load_store.md rules R210 to R212; D9, D10 and D30; log entry 8): the bytes at the effective
address, the most significant first, and no other byte. -/
def Obligations.StoreRules : Prop :=
  (∀ cfg, Encodes3 cfg 3 0b000101 .stb ∧ Encodes3 cfg 3 0b000110 .sth ∧ Encodes3 cfg 3 0b000100 .st) ∧
  ∀ (s : State) (rd rs1 : RegIdx) (op2 : Operand2),
    let ea := s.readReg rs1 + s.op2val op2
    let v := s.readReg rd
    Accesses s 1 ea (exec (.stb rd rs1 op2) s) (fun t =>
      Stores s t ea 1 [] ∧ t.readByte ea = v.extractLsb' 0 8) ∧
    Accesses s 2 ea (exec (.sth rd rs1 op2) s) (fun t =>
      Stores s t ea 2 [] ∧ t.readByte ea = v.extractLsb' 8 8 ∧ t.readByte (ea + 1) = v.extractLsb' 0 8) ∧
    Accesses s 4 ea (exec (.st rd rs1 op2) s) (fun t =>
      Stores s t ea 4 [] ∧ t.readByte ea = v.extractLsb' 24 8 ∧ t.readByte (ea + 1) = v.extractLsb' 16 8 ∧
        t.readByte (ea + 2) = v.extractLsb' 8 8 ∧ t.readByte (ea + 3) = v.extractLsb' 0 8)

/-- STD (42_load_store.md rule R213, D11; 20_memory.md rule R67, D12; log entries 8 and 10): with rd even the words
x[rd] and x[rd + 1] are stored, the first at the lower address. The DMA writes under way land between the two words,
over the first word and outside the doubleword but not over the second word. -/
def Obligations.StoreDoubleRule : Prop :=
  (∀ cfg, Encodes3 cfg 3 0b000111 .std) ∧
  ∀ (s : State) (rd rs1 : RegIdx) (op2 : Operand2),
    let ea := s.readReg rs1 + s.op2val op2
    let v := s.readReg rd
    let dma := lastWrite s.dmaPending
    (rd.toNat % 2 = 1 → exec (.std rd rs1 op2) s = raise .illegalInstruction s) ∧
    (rd.toNat % 2 = 0 →
      Accesses s 8 ea (exec (.std rd rs1 op2) s) fun t =>
        (t.readByte ea = dma ea (v.extractLsb' 24 8) ∧ t.readByte (ea + 1) = dma (ea + 1) (v.extractLsb' 16 8) ∧
          t.readByte (ea + 2) = dma (ea + 2) (v.extractLsb' 8 8) ∧
          t.readByte (ea + 3) = dma (ea + 3) (v.extractLsb' 0 8)) ∧
        t.readWord (ea + 4) = s.readReg (rd + 1) ∧
        (∀ a, a ∉ bytesFrom ea 8 → t.readByte a = dma a (s.readByte a)) ∧ t.dmaPending = [] ∧
        RecordsStore s t ea 8 ∧
        (s.dmaPending = [] → Stores s t ea 8 [] ∧ t.readWord ea = v) ∧
        RegsKept s t [] ∧ t.psr = s.psr ∧ SpecialsKept s t ∧ HiddenKept s t ∧ Advanced s t)

/-- LDSTUB and SWAP (42_load_store.md rules R218 and R219; D9, D10 and D30; log entry 8): the old contents go to
x[rd], 0xFF or the old x[rd] to memory, in the one step. -/
def Obligations.LdstubAndSwapRules : Prop :=
  (∀ cfg, Encodes3 cfg 3 0b001101 .ldstub ∧ Encodes3 cfg 3 0b001111 .swap) ∧
  ∀ (s : State) (rd rs1 : RegIdx) (op2 : Operand2),
    let ea := s.readReg rs1 + s.op2val op2
    Accesses s 1 ea (exec (.ldstub rd rs1 op2) s) (fun t =>
      Stores s t ea 1 [s.phys rd] ∧ t.readByte ea = 0xFF ∧ RegIs t rd ((s.readByte ea).setWidth 32)) ∧
    Accesses s 4 ea (exec (.swap rd rs1 op2) s) (fun t =>
      Stores s t ea 4 [s.phys rd] ∧ t.readWord ea = s.readReg rd ∧ RegIs t rd (s.readWord ea))

/-- Big-endian order (20_memory.md rule R63): of a word stored, each byte and halfword at its address is the slice of
the word, the most significant first; and a fetch decodes the word at PC. -/
def Obligations.BigEndianMemory : Prop :=
  ∀ (s : State) (a v : Word),
    let t := s.storeWord a v
    t.readWord a = v ∧
    t.readHalf a = v.extractLsb' 16 16 ∧ t.readHalf (a + 2) = v.extractLsb' 0 16 ∧
    t.readByte a = v.extractLsb' 24 8 ∧ t.readByte (a + 1) = v.extractLsb' 16 8 ∧
    t.readByte (a + 2) = v.extractLsb' 8 8 ∧ t.readByte (a + 3) = v.extractLsb' 0 8 ∧
    (∀ x, x ∉ bytesFrom a 4 → t.readByte x = s.readByte x) ∧
    decodeBytes s.cfg s.fetchBytes = decode s.cfg (s.readWord s.pc)

/-! ## Control transfer -/

/-- The sixteen branches (43_branch.md rules R230 and R232 to R237), with the history of rule R240 (D21). -/
def Obligations.BranchRules : Prop :=
  (∀ (cfg : Config) (k : Cond) (a : Bool) (disp22 : BitVec 22),
    decode cfg (0#2 ++ (BitVec.ofBool a ++ condCode k) ++ 0b010#3 ++ disp22) = .instr (branchOf k a disp22)) ∧
  ∀ (s : State) (k : Cond) (a : Bool) (disp22 : BitVec 22),
    let target := BitVec.ofInt 32 (s.pc.toNat + 4 * disp22.toInt)
    ∃ t, exec (branchOf k a disp22) s = .next t ∧
      if condTrue k s.psr.icc = true then
        if k = .a ∧ a = true then OnlyMoves s t target (target + 4) .none
        else OnlyMoves s t s.npc target (if k = .a then .uncond else .cond)
      else if a = true then OnlyMoves s t (s.npc + 4) (s.npc + 8) .none
      else OnlyMoves s t s.npc (s.npc + 4) .cond

/-- The table of conditions, its symmetry in bit 3, and what the conditions say after SUBcc of a and b: the signed
ones compare s(a) with s(b) even where the subtraction overflows, the unsigned ones u(a) with u(b) (43_branch.md rule
R231). -/
def Obligations.ConditionsCompare : Prop :=
  (∀ f : Icc,
    condTrue .a f = true ∧ condTrue .n f = false ∧ condTrue .ne f = !f.z ∧ condTrue .e f = f.z ∧
    condTrue .g f = !(f.z || (f.n ^^ f.v)) ∧ condTrue .le f = (f.z || (f.n ^^ f.v)) ∧
    condTrue .ge f = !(f.n ^^ f.v) ∧ condTrue .l f = (f.n ^^ f.v) ∧ condTrue .gu f = !(f.c || f.z) ∧
    condTrue .leu f = (f.c || f.z) ∧ condTrue .cc f = !f.c ∧ condTrue .cs f = f.c ∧ condTrue .pos f = !f.n ∧
    condTrue .neg f = f.n ∧ condTrue .vc f = !f.v ∧ condTrue .vs f = f.v) ∧
  (∀ (f : Icc) (j k : Cond), condCode j = condCode k ^^^ 0b1000#4 → condTrue j f = !condTrue k f) ∧
  ∀ a b : Word,
    let f := subFlags a b false
    (condTrue .g f = true ↔ b.toInt < a.toInt) ∧ (condTrue .le f = true ↔ a.toInt ≤ b.toInt) ∧
    (condTrue .ge f = true ↔ b.toInt ≤ a.toInt) ∧ (condTrue .l f = true ↔ a.toInt < b.toInt) ∧
    (condTrue .gu f = true ↔ b.toNat < a.toNat) ∧ (condTrue .leu f = true ↔ a.toNat ≤ b.toNat) ∧
    (condTrue .cc f = true ↔ b.toNat ≤ a.toNat) ∧ (condTrue .cs f = true ↔ a.toNat < b.toNat) ∧
    (condTrue .e f = true ↔ a = b) ∧ (condTrue .ne f = true ↔ a ≠ b)

/-- CALL and JMPL (44_subroutine.md rules R261 and R264; D21 and D31): both put their own address in a register and
transfer control after the next instruction; both are refused in the delay slot of a conditional branch. -/
def Obligations.CallAndJumpRules : Prop :=
  (∀ (cfg : Config) (disp30 : BitVec 30), decode cfg (1#2 ++ disp30) = .instr (.call disp30)) ∧
  (∀ cfg, Encodes3 cfg 2 0b111000 .jmpl) ∧
  ∀ (s : State) (disp30 : BitVec 30) (rd rs1 : RegIdx) (op2 : Operand2),
    let target := s.readReg rs1 + s.op2val op2
    (∃ t, exec (.call disp30) s = .next t ∧ Links s t 15 (BitVec.ofInt 32 (s.pc.toNat + 4 * disp30.toInt))) ∧
    (target.toNat % 4 ≠ 0 → exec (.jmpl rd rs1 op2) s = raise .memAddressNotAligned s) ∧
    (target.toNat % 4 = 0 → ∃ t, exec (.jmpl rd rs1 op2) s = .next t ∧ Links s t rd target) ∧
    (s.dctiPrev = .cond → runInstr s (.call disp30) = .refused .dctiCouple ∧
      runInstr s (.jmpl rd rs1 op2) = .refused .dctiCouple)

/-- SAVE and RESTORE (44_subroutine.md rules R268 and R269; the modulus is D2): the WIM bit of the window to be
entered decides; the sum is read in the old window and written in the new one. -/
def Obligations.WindowMoveRules : Prop :=
  (∀ cfg, Encodes3 cfg 2 0b111100 .save ∧ Encodes3 cfg 2 0b111101 .restore) ∧
  ∀ (s : State) (rd rs1 : RegIdx) (op2 : Operand2) (down up : BitVec 5),
    down.toNat = (s.psr.cwp.toNat + s.cfg.nwindows.toNat - 1) % s.cfg.nwindows.toNat →
    up.toNat = (s.psr.cwp.toNat + 1) % s.cfg.nwindows.toNat →
    let v := s.readReg rs1 + s.op2val op2
    (s.wim.getLsbD down.toNat = true → exec (.save rd rs1 op2) s = raise .windowOverflow s) ∧
    (s.wim.getLsbD down.toNat = false →
      ∃ t, exec (.save rd rs1 op2) s = .next t ∧ MovesWindow s t down rd v) ∧
    (s.wim.getLsbD up.toNat = true → exec (.restore rd rs1 op2) s = raise .windowUnderflow s) ∧
    (s.wim.getLsbD up.toNat = false →
      ∃ t, exec (.restore rd rs1 op2) s = .next t ∧ MovesWindow s t up rd v)

/-- The sixteen trap instructions (45_trap_instructions.md rule R281; D4 and D36): with the condition false nothing
but PC and nPC changes; with it true the trap of type 128 plus the low seven bits of the sum is raised. -/
def Obligations.TrapInstructionRules : Prop :=
  (∀ (cfg : Config) (k : Cond) (rs1 rs2 : RegIdx) (imm7 : BitVec 7),
    decode cfg (2#2 ++ (0#1 ++ condCode k) ++ 0b111010#6 ++ rs1 ++ 0#1 ++ (0#8 ++ rs2)) =
        .instr (trapOf k rs1 (.reg rs2)) ∧
      decode cfg (2#2 ++ (0#1 ++ condCode k) ++ 0b111010#6 ++ rs1 ++ 1#1 ++ (0#6 ++ imm7)) =
        .instr (trapOf k rs1 (.imm imm7))) ∧
  ∀ (s : State) (k : Cond) (rs1 : RegIdx) (num : TrapNumber),
    let sum : Word := match num with
      | .reg rs2 => s.readReg rs1 + s.readReg rs2
      | .imm imm7 => s.readReg rs1 + BitVec.ofNat 32 imm7.toNat
    (condTrue k s.psr.icc = false →
      ∃ t, exec (trapOf k rs1 num) s = .next t ∧ OnlyMoves s t s.npc (s.npc + 4) .none) ∧
    (condTrue k s.psr.icc = true →
      exec (trapOf k rs1 num) s = raise (.trapInstruction (BitVec.ofNat 7 sum.toNat)) s ∧
        (TrapsTaken s → ∃ t, exec (trapOf k rs1 num) s = .next t ∧
          TrapEntered s t (BitVec.ofNat 8 (128 + sum.toNat % 128))))

/-- RETT (45_trap_instructions.md rule R298; D16, D21 and D31). -/
def Obligations.ReturnFromTrapRule : Prop :=
  (∀ cfg, Encodes3NoRd cfg 0b111001 .rett) ∧
  ∀ (s : State) (rs1 : RegIdx) (op2 : Operand2) (up : BitVec 5),
    up.toNat = (s.psr.cwp.toNat + 1) % s.cfg.nwindows.toNat →
    let target := s.readReg rs1 + s.op2val op2
    (s.psr.et = true → s.psr.s = false → exec (.rett rs1 op2) s = raise .privilegedInstruction s) ∧
    (s.psr.et = true → s.psr.s = true → exec (.rett rs1 op2) s = raise .illegalInstruction s) ∧
    (s.psr.et = false → s.psr.s = false ∨ s.wim.getLsbD up.toNat = true ∨ target.toNat % 4 ≠ 0 →
      ∃ t, exec (.rett rs1 op2) s = .next t ∧ InErrorMode s t) ∧
    (s.psr.et = false → s.psr.s = true → s.wim.getLsbD up.toNat = false → target.toNat % 4 = 0 →
      ∃ t, exec (.rett rs1 op2) s = .next t ∧
        t.psr = ⟨s.psr.icc, s.psr.pil, s.psr.ps, s.psr.ps, true, up⟩ ∧ Completed s t s.npc target .uncond ∧
        RegsKept s t [] ∧ SpecialsKept s t ∧ MemKept s t ∧ HiddenKept s t) ∧
    (s.dctiPrev = .cond → runInstr s (.rett rs1 op2) = .refused .dctiCouple)

/-- UNIMP raises illegal_instruction, FLUSH is refused (30_encoding.md rule R121, D14). -/
def Obligations.UnimpAndFlushRule : Prop :=
  ∀ (cfg : Config) (s : State) (bits rd : BitVec 5) (const22 : BitVec 22) (rest : BitVec 19),
    decode cfg (0#2 ++ bits ++ 0b000#3 ++ const22) = .instr (.unimp bits const22) ∧
    exec (.unimp bits const22) s = raise .illegalInstruction s ∧
    (TrapsTaken s → ∃ t, exec (.unimp bits const22) s = .next t ∧ TrapEntered s t 0x02) ∧
    decode cfg (2#2 ++ rd ++ 0b111011#6 ++ rest) = .rejected .flush

/-! ## State registers -/

/-- PSR and TBR as words (10_state.md rules R34 and R38, D3 and D4). -/
def Obligations.PsrAndTbrLayout : Prop :=
  ∀ s : State,
    s.psrWord.extractLsb' 28 4 = s.cfg.psrImpl ∧ s.psrWord.extractLsb' 24 4 = s.cfg.psrVer ∧
    s.psrWord.getLsbD 23 = s.psr.icc.n ∧ s.psrWord.getLsbD 22 = s.psr.icc.z ∧
    s.psrWord.getLsbD 21 = s.psr.icc.v ∧ s.psrWord.getLsbD 20 = s.psr.icc.c ∧
    s.psrWord.extractLsb' 14 6 = 0 ∧ s.psrWord.getLsbD 13 = false ∧ s.psrWord.getLsbD 12 = false ∧
    s.psrWord.extractLsb' 8 4 = s.psr.pil ∧ s.psrWord.getLsbD 7 = s.psr.s ∧ s.psrWord.getLsbD 6 = s.psr.ps ∧
    s.psrWord.getLsbD 5 = s.psr.et ∧ s.psrWord.extractLsb' 0 5 = s.psr.cwp ∧
    s.tbr.toWord.extractLsb' 12 20 = s.tbr.tba ∧ s.tbr.toWord.extractLsb' 4 8 = s.tbr.tt ∧
    s.tbr.toWord.extractLsb' 0 4 = 0 ∧ s.tbr.toWord.toNat = s.tbr.tba.toNat * 4096 + 16 * s.tbr.tt.toNat

/-- RDPSR, RDWIM, RDTBR and RDY (46_state_register.md rules R301 to R303 and R308; D3, D4, D17 and D20), the first
three privileged, each refused inside the delayed-write window of its register. -/
def Obligations.ReadStateRegisterRules : Prop :=
  (∀ (cfg : Config) (rd : RegIdx) (unused : BitVec 19) (unused14 : BitVec 14),
    decode cfg (2#2 ++ rd ++ 0b101001#6 ++ unused) = .instr (.rdpsr rd) ∧
    decode cfg (2#2 ++ rd ++ 0b101010#6 ++ unused) = .instr (.rdwim rd) ∧
    decode cfg (2#2 ++ rd ++ 0b101011#6 ++ unused) = .instr (.rdtbr rd) ∧
    decode cfg (2#2 ++ rd ++ 0b101000#6 ++ 0#5 ++ unused14) = .instr (.rdy rd)) ∧
  ∀ (s : State) (rd : RegIdx),
    (s.psr.s = false → exec (.rdpsr rd) s = raise .privilegedInstruction s ∧
      exec (.rdwim rd) s = raise .privilegedInstruction s ∧ exec (.rdtbr rd) s = raise .privilegedInstruction s) ∧
    (s.psr.s = true →
      (∃ t, exec (.rdpsr rd) s = .next t ∧
        Computes s t rd
          (s.cfg.psrImpl ++ s.cfg.psrVer ++ BitVec.ofBool s.psr.icc.n ++ BitVec.ofBool s.psr.icc.z ++
            BitVec.ofBool s.psr.icc.v ++ BitVec.ofBool s.psr.icc.c ++ 0#6 ++ 0#1 ++ 0#1 ++ s.psr.pil ++ BitVec.ofBool s.psr.s ++
            BitVec.ofBool s.psr.ps ++ BitVec.ofBool s.psr.et ++ s.psr.cwp) s.psr.icc s.y) ∧
      (∃ t v, exec (.rdwim rd) s = .next t ∧ Computes s t rd v s.psr.icc s.y ∧
        ∀ w, v.getLsbD w = (decide (w < s.cfg.nwindows.toNat) && s.wim.getLsbD w)) ∧
      (∃ t, exec (.rdtbr rd) s = .next t ∧ Computes s t rd (s.tbr.tba ++ s.tbr.tt ++ 0#4) s.psr.icc s.y)) ∧
    (∃ t, exec (.rdy rd) s = .next t ∧ Computes s t rd s.y s.psr.icc s.y) ∧
    (s.pending.psr ≠ 0 → ∃ r, runInstr s (.rdpsr rd) = .refused r) ∧
    (s.pending.wim ≠ 0 → ∃ r, runInstr s (.rdwim rd) = .refused r) ∧
    (s.pending.tbr ≠ 0 → ∃ r, runInstr s (.rdtbr rd) = .refused r) ∧
    (s.pending.y ≠ 0 → ∃ r, runInstr s (.rdy rd) = .refused r)

/-- WRPSR (46_state_register.md rule R304; D2, D3, D17 and D20): the writable fields take the bits of the exclusive
or, and the delayed-write window of PSR opens with the fields whose value changed. -/
def Obligations.WritePsrRule : Prop :=
  (∀ cfg, Encodes3NoRd cfg 0b110001 .wrpsr) ∧
  ∀ (s : State) (rs1 : RegIdx) (op2 : Operand2),
    let v := s.readReg rs1 ^^^ s.op2val op2
    let new : Psr := ⟨⟨v.getLsbD 23, v.getLsbD 22, v.getLsbD 21, v.getLsbD 20⟩, v.extractLsb' 8 4, v.getLsbD 7,
      v.getLsbD 6, v.getLsbD 5, v.extractLsb' 0 5⟩
    (s.psr.s = false → exec (.wrpsr rs1 op2) s = raise .privilegedInstruction s) ∧
    (s.psr.s = true → s.cfg.nwindows.toNat ≤ v.toNat % 32 →
      exec (.wrpsr rs1 op2) s = raise .illegalInstruction s) ∧
    (s.psr.s = true → v.toNat % 32 < s.cfg.nwindows.toNat →
      ∃ t, exec (.wrpsr rs1 op2) s = .next t ∧ t.psr = new ∧ SpecialsKept s t ∧
        WritesState s t { s.pending.tick with
          psr := 3
          changed := ⟨decide (s.psr.icc ≠ new.icc), decide (s.psr.pil ≠ new.pil), decide (s.psr.s ≠ new.s),
            decide (s.psr.ps ≠ new.ps), decide (s.psr.et ≠ new.et), decide (s.psr.cwp ≠ new.cwp)⟩
          oldPil := s.psr.pil })

/-- WRWIM, WRTBR and WRY (46_state_register.md rules R305, R306 and R310; D4, D5, D6, D17 and D20): the written
register, its delayed-write window opened, the privilege check of the first two. -/
def Obligations.WriteWimTbrYRules : Prop :=
  (∀ cfg, Encodes3NoRd cfg 0b110010 .wrwim ∧ Encodes3NoRd cfg 0b110011 .wrtbr ∧
    Encodes3NoRd cfg 0b110000 .wry) ∧
  ∀ (s : State) (rs1 : RegIdx) (op2 : Operand2),
    let v := s.readReg rs1 ^^^ s.op2val op2
    (s.psr.s = false → exec (.wrwim rs1 op2) s = raise .privilegedInstruction s ∧
      exec (.wrtbr rs1 op2) s = raise .privilegedInstruction s) ∧
    (s.psr.s = true →
      (∃ t, exec (.wrwim rs1 op2) s = .next t ∧
        (∀ w, t.wim.getLsbD w = (decide (w < s.cfg.nwindows.toNat) && v.getLsbD w)) ∧
        t.psr = s.psr ∧ t.tbr = s.tbr ∧ t.y = s.y ∧ WritesState s t { s.pending.tick with wim := 3 }) ∧
      (∃ t, exec (.wrtbr rs1 op2) s = .next t ∧ t.tbr = ⟨v.extractLsb' 12 20, s.tbr.tt⟩ ∧
        t.psr = s.psr ∧ t.wim = s.wim ∧ t.y = s.y ∧ WritesState s t { s.pending.tick with tbr := 3 })) ∧
    (∃ t, exec (.wry rs1 op2) s = .next t ∧ t.y = v ∧ t.psr = s.psr ∧ t.wim = s.wim ∧ t.tbr = s.tbr ∧
      WritesState s t { s.pending.tick with y := 3 })

/-- RDASR and WRASR (46_state_register.md rules R309 and R311, D27): no ancillary state register is implemented, and
each raises illegal_instruction. -/
def Obligations.AncillaryRegisterRules : Prop :=
  (∀ (cfg : Config) (rd asr rs1 rs2 : RegIdx) (unused14 : BitVec 14) (simm13 : BitVec 13), asr ≠ 0 →
    decode cfg (2#2 ++ rd ++ 0b101000#6 ++ asr ++ unused14) = .instr (.rdasr rd asr) ∧
    decode cfg (2#2 ++ asr ++ 0b110000#6 ++ rs1 ++ 0#1 ++ (0#8 ++ rs2)) = .instr (.wrasr asr rs1 (.reg rs2)) ∧
    decode cfg (2#2 ++ asr ++ 0b110000#6 ++ rs1 ++ 1#1 ++ simm13) = .instr (.wrasr asr rs1 (.imm simm13))) ∧
  ∀ (s : State) (rd asr rs1 : RegIdx) (op2 : Operand2),
    exec (.rdasr rd asr) s = raise .illegalInstruction s ∧
    exec (.wrasr asr rs1 op2) s = raise .illegalInstruction s ∧
    (TrapsTaken s →
      (∃ t, exec (.rdasr rd asr) s = .next t ∧ TrapEntered s t 0x02) ∧
      (∃ t, exec (.wrasr asr rs1 op2) s = .next t ∧ TrapEntered s t 0x02))

/-! ## Registers and windows -/

/-- r0 is zero and discards writes, the globals are the same in every window, the outs of a window are the ins of the
window below, its locals are shared with no other window (10_state.md rules R22 and R24). -/
def Obligations.WindowOverlap : Prop :=
  ∀ (s : State) (w : BitVec 5) (v : Word),
    s.readRegAt w 0 = 0 ∧ s.writeRegAt w 0 v = s ∧
    (∀ w' i, i.toNat < 8 → s.readRegAt w i = s.readRegAt w' i) ∧
    (∀ (below : BitVec 5) (k : RegIdx), w.toNat < s.cfg.nwindows.toNat →
      below.toNat = (w.toNat + s.cfg.nwindows.toNat - 1) % s.cfg.nwindows.toNat → k.toNat < 8 →
        s.readRegAt w (8 + k) = s.readRegAt below (24 + k) ∧
        (s.writeRegAt w (8 + k) v).readRegAt below (24 + k) = v) ∧
    (∀ (w' : BitVec 5) (k i : RegIdx), w.toNat < s.cfg.nwindows.toNat → w'.toNat < s.cfg.nwindows.toNat →
      k.toNat < 8 → w' ≠ w →
        (s.writeRegAt w (16 + k) v).readRegAt w' i = s.readRegAt w' i)

/-! ## Traps, interrupts, reset -/

/-- The table of traps: types and priorities (60_exceptions.md rule R322, D15; reset is not a trap with a type). -/
def Obligations.TrapTable : Prop :=
  (Trap.tt .instructionAccessException = 0x01 ∧ Trap.priority .instructionAccessException = 5) ∧
  (Trap.tt .privilegedInstruction = 0x03 ∧ Trap.priority .privilegedInstruction = 6) ∧
  (Trap.tt .illegalInstruction = 0x02 ∧ Trap.priority .illegalInstruction = 7) ∧
  (Trap.tt .fpDisabled = 0x04 ∧ Trap.priority .fpDisabled = 8) ∧
  (Trap.tt .cpDisabled = 0x24 ∧ Trap.priority .cpDisabled = 8) ∧
  (Trap.tt .windowOverflow = 0x05 ∧ Trap.priority .windowOverflow = 9) ∧
  (Trap.tt .windowUnderflow = 0x06 ∧ Trap.priority .windowUnderflow = 9) ∧
  (Trap.tt .memAddressNotAligned = 0x07 ∧ Trap.priority .memAddressNotAligned = 10) ∧
  (Trap.tt .dataAccessException = 0x09 ∧ Trap.priority .dataAccessException = 13) ∧
  (Trap.tt .tagOverflow = 0x0A ∧ Trap.priority .tagOverflow = 14) ∧
  (Trap.tt .divisionByZero = 0x2A ∧ Trap.priority .divisionByZero = 15) ∧
  (∀ n, (Trap.tt (.trapInstruction n)).toNat = 0x80 + n.toNat ∧ Trap.priority (.trapInstruction n) = 16) ∧
  (∀ level, (Trap.tt (.interruptLevel level)).toNat = 0x10 + level.toNat ∧
    Trap.priority (.interruptLevel level) = 32 - level.toNat)

/-- What raising a trap does (60_exceptions.md rules R330 and R336, 70_reset_and_hazards.md rule R380; D2, D4, D16 and
D20): inside a delayed-write window its entry depends on it is refused; with ET = 0 it is error mode; else it is the
trap entry sequence, whatever WIM holds, with every open window left open. That the refusal for the PSR window comes
before the test of ET, and that before the refusal for the TBR window, is the model's order (log entries 6 and 18). -/
def Obligations.TrapEntryRule : Prop :=
  ∀ (trap : Trap) (s : State),
    (s.pending.psr ≠ 0 → s.pending.changed.s = true ∨ s.pending.changed.cwp = true →
      raise trap s = .refused (.trapInDelayedWrite .psr)) ∧
    (s.modeOrWindowUnsettled = false → s.psr.et = false → ∃ t, raise trap s = .next t ∧ InErrorMode s t) ∧
    (s.modeOrWindowUnsettled = false → s.psr.et = true → s.pending.tbr ≠ 0 →
      raise trap s = .refused (.trapInDelayedWrite .tbr)) ∧
    (TrapsTaken s → ∃ t, raise trap s = .next t ∧ TrapEntered s t trap.tt)

/-- Error mode (60_exceptions.md rule R336, D16): the processor executes nothing and changes nothing; only the
environment's DMA changes memory, an interrupt request does nothing, only reset leaves it, and it is not the end of
the run. How the environment's input is taken in is the model's (log entry 10), and with nothing left to come the
model says that the machine is stuck (log entry 7). -/
def Obligations.ErrorModeRule : Prop :=
  ∀ s : State, s.errorMode = true →
    s.atEnd = false ∧
    (s.inputs = [] → s.dmaPending = [] → step s = .fault .errorMode) ∧
    (s.inputs ≠ [] ∨ s.dmaPending ≠ [] → s.input.reset = none →
      ∃ t, step s = .next t ∧
        t = { s with inputs := s.inputs.tail, mem := t.mem, dmaPending := s.input.dmaBetween } ∧
        ∀ a, t.readByte a = lastWrite (s.dmaPending ++ s.input.dma) a (s.readByte a)) ∧
    (∀ image, s.input.reset = some image → ∃ t, step s = .next t ∧ t.errorMode = false ∧ t.pc = 0)

/-- The interrupt test before an instruction (60_exceptions.md rule R340, D18): t is the state with the environment's
input taken in. Level 15 is not masked by PIL, ET = 0 masks every level, an accepted request is taken and the
instruction at PC is not executed. Inside the PSR window after a write that changed PIL the test must not depend on
which PIL it sees (70_reset_and_hazards.md rule R380, D20). The inputs are the model's (log entry 10). -/
def Obligations.InterruptRule : Prop :=
  ∀ s : State, s.errorMode = false → s.input.reset = none →
    let t := s.takeInput
    let irl := s.input.irl
    let accepted := fun pil : BitVec 4 => s.psr.et = true ∧ (irl = 15 ∨ pil.toNat < irl.toNat)
    let unsettled := s.pending.psr ≠ 0 ∧ s.pending.changed.pil = true
    (unsettled → ¬(accepted s.pending.oldPil ↔ accepted s.psr.pil) →
      step s = .refused .interruptTestInDelayedWrite) ∧
    ((unsettled → (accepted s.pending.oldPil ↔ accepted s.psr.pil)) → accepted s.psr.pil →
      step s = raise (.interruptLevel irl) t ∧
        (TrapsTaken t → ∃ u, step s = .next u ∧ TrapEntered t u (BitVec.ofNat 8 (0x10 + irl.toNat)))) ∧
    ((unsettled → (accepted s.pending.oldPil ↔ accepted s.psr.pil)) → ¬accepted s.psr.pil → step s = runAtPc t)

/-- Reset (70_reset_and_hazards.md rule R370, D19 and D35; log entry 11): whatever the state, whatever ET, in error
mode or not, with or without an interrupt request, PC = 0, nPC = 4, S = 1, ET = 0, the hidden state cleared, CWP a
window, memory what the platform loaded. That a byte outside what it loaded reads `Memory.unlisted` is the model's
unsafe choice (log entry 3), where 10_state.md rule R43 says unspecified. -/
def Obligations.ResetRule : Prop :=
  ∀ (s : State) (image : List (Word × Byte)), s.input.reset = some image →
    ∃ t, step s = .next t ∧ t.pc = 0 ∧ t.npc = 4 ∧ t.psr.s = true ∧ t.psr.et = false ∧
      t.psr.cwp.toNat < s.cfg.nwindows.toNat ∧ (∀ w, s.cfg.nwindows.toNat ≤ w → t.wim.getLsbD w = false) ∧
      t.readReg 0 = 0 ∧ t.errorMode = false ∧ t.dctiPrev = .none ∧ t.pending = .closed ∧ t.cfg = s.cfg ∧
      t.storedTo = [] ∧ t.dmaPending = [] ∧ ∀ a, t.readByte a = lastWrite image a Memory.unlisted

/-- The values the spec gives the state after reset (10_state.md rule R43, D19, D25 and D26): PC, nPC, S, ET, r0, the
hard-wired bits of PSR, WIM and TBR and the hidden state; the others are the model's choice (log entry 2) and not
stated. -/
def Obligations.ResetStateValues : Prop :=
  State.reset.pc = 0 ∧ State.reset.npc = 4 ∧ State.reset.psr.s = true ∧ State.reset.psr.et = false ∧
  State.reset.psr.cwp.toNat < State.reset.cfg.nwindows.toNat ∧ State.reset.readReg 0 = 0 ∧
  State.reset.psrWord.extractLsb' 14 6 = 0 ∧ State.reset.psrWord.extractLsb' 12 2 = 0 ∧
  State.reset.psrWord.extractLsb' 28 4 = State.reset.cfg.psrImpl ∧
  State.reset.psrWord.extractLsb' 24 4 = State.reset.cfg.psrVer ∧
  State.reset.wimWord &&& ~~~windowMask State.reset.cfg.nwindows = 0 ∧ State.reset.tbr.toWord.extractLsb' 0 4 = 0 ∧
  State.reset.pending = .closed ∧ State.reset.errorMode = false ∧ State.reset.dctiPrev = .none

/-! ## The step -/

/-- A step runs the decoded instruction. t is the state with the environment's input taken in: of it only memory, the
inputs and the DMA under way change, each address reads the last byte DMA wrote to it or what it read before, and with
nothing to come t is s itself. Where no interrupt is accepted, the bytes at PC are populated and not stored to, and
they decode to i, the step is the instruction's refusal by the checks before it (D20 and D21) if there is one, else
exec of i. How the input is taken in is log entry 10, the order of the checks log entry 18: the model's choices. -/
def Obligations.StepRunsDecodedInstruction : Prop :=
  ∀ (s : State) (i : Instr),
    let t := s.takeInput
    (s.inputs = [] → s.dmaPending = [] → t = s) ∧
    t = { s with inputs := s.inputs.tail, mem := t.mem, dmaPending := s.input.dmaBetween } ∧
    (∀ a, t.readByte a = lastWrite (s.dmaPending ++ s.input.dma) a (s.readByte a)) ∧
    (s.errorMode = false → s.input.reset = none →
      interruptTest s.input.irl s.psr.et s.psr.pil = false →
      (s.pending.psr ≠ 0 → s.pending.changed.pil = true →
        interruptTest s.input.irl s.psr.et s.pending.oldPil = false) →
      t.accessible t.pc 4 = true → t.fetchesStored = false → decodeBytes t.cfg t.fetchBytes = .instr i →
        (∀ r, hazard i t = some r → step s = .refused r) ∧ (hazard i t = none → step s = exec i t))

/-- What a fetch does when it gives no instruction: an unpopulated address raises instruction_access_exception
(20_memory.md rule R70, D30), a byte the program has stored to is refused (rule R76, D13), an unassigned encoding
raises illegal_instruction (D14), a floating-point or coprocessor one its trap (log entry 5), the others are refused
by name. That one unpopulated byte of the four is enough (log entry 8) and that this is asked before the stored bytes
(log entries 12 and 18) are the model's choices. -/
def Obligations.FetchRule : Prop :=
  ∀ s : State, s.errorMode = false → s.inputs = [] → s.dmaPending = [] →
    (s.accessible s.pc 4 = false → step s = raise .instructionAccessException s) ∧
    (s.accessible s.pc 4 = true → (∃ a ∈ bytesFrom s.pc 4, a.toNat ∈ s.storedTo) →
      step s = .refused .fetchOfStoredByte) ∧
    (s.accessible s.pc 4 = true → (∀ a ∈ bytesFrom s.pc 4, a.toNat ∉ s.storedTo) →
      (decode s.cfg (s.readWord s.pc) = .illegal → step s = raise .illegalInstruction s) ∧
      (decode s.cfg (s.readWord s.pc) = .fpDisabled → step s = raise .fpDisabled s) ∧
      (decode s.cfg (s.readWord s.pc) = .cpDisabled → step s = raise .cpDisabled s) ∧
      (decode s.cfg (s.readWord s.pc) = .rejected .flush → step s = .refused .flush) ∧
      (decode s.cfg (s.readWord s.pc) = .rejected .alternateSpace → step s = .refused .alternateSpace) ∧
      (decode s.cfg (s.readWord s.pc) = .rejected .reservedField → step s = .refused .reservedField))

/-- Every step keeps the invariant: PC and nPC aligned, CWP a window, WIM without bits for absent windows, r0 and the
absent windows empty, memory canonical and within its 2^32 bytes, the record of stores strictly rising. -/
def Obligations.StepKeepsInvariant : Prop := ∀ s t : State, s.Inv → step s = .next t → t.Inv

/-- The state after reset satisfies the invariant. -/
def Obligations.ResetStateSatisfiesInvariant : Prop := State.reset.Inv

/-- No step changes the parameters: the model's choice (log entry 1), which holds those of 00_scope.md rule R6 in a
field of the state. -/
def Obligations.ParametersNeverChange : Prop := ∀ s t : State, step s = .next t → t.cfg = s.cfg

/-- Exactly these events change CWP: SAVE and trap entry (down), RESTORE and RETT (up), and a WRPSR (10_state.md rule
R26, D2). -/
def Obligations.CwpChangeEvents : Prop :=
  ∀ (i : Instr) (s t : State), exec i s = .next t →
    t.psr.cwp = s.psr.cwp ∨
    ((∃ rd rs1 op2, i = .save rd rs1 op2) ∧
      t.psr.cwp.toNat = (s.psr.cwp.toNat + s.cfg.nwindows.toNat - 1) % s.cfg.nwindows.toNat) ∨
    ((∃ tt, TrapEntered s t tt) ∧
      t.psr.cwp.toNat = (s.psr.cwp.toNat + s.cfg.nwindows.toNat - 1) % s.cfg.nwindows.toNat) ∨
    ((∃ rd rs1 op2, i = .restore rd rs1 op2) ∧
      t.psr.cwp.toNat = (s.psr.cwp.toNat + 1) % s.cfg.nwindows.toNat) ∨
    ((∃ rs1 op2, i = .rett rs1 op2) ∧ t.psr.cwp.toNat = (s.psr.cwp.toNat + 1) % s.cfg.nwindows.toNat) ∨
    (∃ rs1 op2, i = .wrpsr rs1 op2 ∧ t.psr.cwp = (s.readReg rs1 ^^^ s.op2val op2).extractLsb' 0 5)

/-- Which instructions write icc, Y, WIM, TBA, PIL and memory (10_state.md rules R29, R34, R35, R38 and R39,
20_memory.md rule R60): every other instruction, trapping or not, leaves them as they were, but that DMA writes under
way land inside an LDD (rule R67, log entry 10). -/
def Obligations.StateRegisterWriters : Prop :=
  ∀ (i : Instr) (s t : State), exec i s = .next t →
    (writesIcc i = false → t.psr.icc = s.psr.icc) ∧
    (writesY i = false → t.y = s.y) ∧
    ((∀ rs1 op2, i ≠ .wrwim rs1 op2) → t.wim = s.wim) ∧
    ((∀ rs1 op2, i ≠ .wrtbr rs1 op2) → t.tbr.tba = s.tbr.tba) ∧
    ((∀ rs1 op2, i ≠ .wrpsr rs1 op2) → t.psr.pil = s.psr.pil) ∧
    (writesMemory i = false →
      t.storedTo = s.storedTo ∧
        (s.dmaPending = [] ∨ (∀ rd rs1 op2, i ≠ .ldd rd rs1 op2) → t.mem = s.mem ∧ t.dmaPending = s.dmaPending))

/-- User mode is confined (60_exceptions.md rules R350 and R351, D17): a step in user mode that the environment does
not disturb stays in user mode with PIL, PS, ET, WIM, TBR and the windows of delayed writes to PSR, WIM and TBR not
opened, or takes a trap through the trap table, or ends in error mode. -/
def Obligations.UserModeConfined : Prop :=
  ∀ s t : State, s.errorMode = false → s.inputs = [] → s.dmaPending = [] → s.psr.s = false → step s = .next t →
    (t.psr.s = false ∧ t.psr.pil = s.psr.pil ∧ t.psr.ps = s.psr.ps ∧ t.psr.et = s.psr.et ∧ t.wim = s.wim ∧
      t.tbr = s.tbr ∧ t.errorMode = false ∧ t.pending.psr ≤ s.pending.psr ∧ t.pending.wim ≤ s.pending.wim ∧
      t.pending.tbr ≤ s.pending.tbr) ∨
    (∃ tt, TrapEntered s t tt) ∨ InErrorMode s t

/-- The return sequences (45_trap_instructions.md rule R299, an inference of the spec): from a state in which traps
are enabled, the entry of any trap followed by JMPL %r17 and RETT %r18 restores PC, nPC, CWP, S and ET; followed by
JMPL %r18 and RETT %r18 + 4 it goes on after the trapped instruction. PS is left as S was, tt as the trap wrote it. -/
def Obligations.TrapThenReturnResumes : Prop :=
  ∀ (s h : State) (tt : BitVec 8), TrapsTaken s → s.Inv → s.wim.getLsbD s.psr.cwp.toNat = false →
    TrapEntered s h tt →
    (∃ u v, exec (.jmpl 0 17 (.reg 0)) h = .next u ∧ exec (.rett 18 (.reg 0)) u = .next v ∧
      v.pc = s.pc ∧ v.npc = s.npc ∧ v.psr = { s.psr with ps := s.psr.s } ∧
      RegsKept s v [physReg s.cfg.nwindows h.psr.cwp 17, physReg s.cfg.nwindows h.psr.cwp 18] ∧
      v.wim = s.wim ∧ v.y = s.y ∧ v.tbr = ⟨s.tbr.tba, tt⟩ ∧ MemKept s v) ∧
    (∃ u v, exec (.jmpl 0 18 (.reg 0)) h = .next u ∧ exec (.rett 18 (.imm 4)) u = .next v ∧
      v.pc = s.npc ∧ v.npc = s.npc + 4 ∧ v.psr = { s.psr with ps := s.psr.s } ∧
      RegsKept s v [physReg s.cfg.nwindows h.psr.cwp 17, physReg s.cfg.nwindows h.psr.cwp 18] ∧
      v.wim = s.wim ∧ v.y = s.y ∧ v.tbr = ⟨s.tbr.tba, tt⟩ ∧ MemKept s v)

/-! ## Hazards -/

/-- The delayed-write windows (70_reset_and_hazards.md rule R380, D20; log entry 6): the refusals of rule R380(c), row
by row; the whole table, an instruction in the row of a register whose window is open being refused and every other
one proceeding (rule R380(d)), also inside an open window; and the count of an executed instruction (rule R380(b)).
The rows are `inOpenRow` and `namesWindowed`, written from the table; which fields of WRASR, RDASR and the write
instructions are register fields is the model's reading (log entry 6). -/
def Obligations.DelayedWriteRefusals : Prop :=
  ∀ (s : State) (rd rs1 : RegIdx) (op2 : Operand2) (num : TrapNumber) (k : Cond) (a : Bool) (disp22 : BitVec 22)
      (i : Instr),
    (s.pending.psr ≠ 0 → ∀ j ∈ [Instr.rdpsr rd, .wrpsr rs1 op2], ∃ r, runInstr s j = .refused r) ∧
    (s.pending.psr ≠ 0 → s.pending.changed.icc = true → k ≠ .a → k ≠ .n →
      ∀ j ∈ [branchOf k a disp22, trapOf k rs1 num, .addx rd rs1 op2, .addxcc rd rs1 op2, .subx rd rs1 op2,
        .subxcc rd rs1 op2, .mulscc rd rs1 op2], ∃ r, runInstr s j = .refused r) ∧
    (s.pending.psr ≠ 0 → s.pending.changed.cwp = true →
      namesWindowed i = true ∨ i ∈ [Instr.save rd rs1 op2, .restore rd rs1 op2, .rett rs1 op2] →
        ∃ r, runInstr s i = .refused r) ∧
    (s.pending.psr ≠ 0 → s.pending.changed.s = true →
      ∀ j ∈ [Instr.rett rs1 op2, .rdpsr rd, .rdwim rd, .rdtbr rd, .wrpsr rs1 op2, .wrwim rs1 op2, .wrtbr rs1 op2],
        ∃ r, runInstr s j = .refused r) ∧
    (s.pending.psr ≠ 0 → s.pending.changed.et = true ∨ s.pending.changed.ps = true →
      ∃ r, runInstr s (.rett rs1 op2) = .refused r) ∧
    (s.pending.wim ≠ 0 →
      ∀ j ∈ [Instr.rdwim rd, .wrwim rs1 op2, .save rd rs1 op2, .restore rd rs1 op2, .rett rs1 op2],
        ∃ r, runInstr s j = .refused r) ∧
    (s.pending.tbr ≠ 0 → ∀ j ∈ [Instr.rdtbr rd, .wrtbr rs1 op2], ∃ r, runInstr s j = .refused r) ∧
    (s.pending.y ≠ 0 →
      ∀ j ∈ [Instr.rdy rd, .wry rs1 op2, .mulscc rd rs1 op2, .umul rd rs1 op2, .umulcc rd rs1 op2, .smul rd rs1 op2,
        .smulcc rd rs1 op2, .udiv rd rs1 op2, .udivcc rd rs1 op2, .sdiv rd rs1 op2, .sdivcc rd rs1 op2],
        ∃ r, runInstr s j = .refused r) ∧
    (s.pending.psr = 0 → s.pending.wim = 0 → s.pending.tbr = 0 → s.pending.y = 0 → s.dctiPrev ≠ .cond →
      runInstr s i = exec i s) ∧
    (s.dctiPrev ≠ .cond ∨ isDelayedTransfer i = false →
      (inOpenRow s.pending i = true → ∃ r, runInstr s i = .refused (.delayedWrite r)) ∧
      (inOpenRow s.pending i = false → runInstr s i = exec i s)) ∧
    (s.pending.tick.psr.val = s.pending.psr.val - 1 ∧ s.pending.tick.wim.val = s.pending.wim.val - 1 ∧
      s.pending.tick.tbr.val = s.pending.tbr.val - 1 ∧ s.pending.tick.y.val = s.pending.y.val - 1)

/-- Every instruction that completes counts one in each delayed-write window it does not open and clears the history
unless it is a delayed control transfer; one that raises a trap does neither (70_reset_and_hazards.md rule R380(b),
D20; 43_branch.md rule R240, D21; log entry 6). -/
def Obligations.CompletionCountsOne : Prop :=
  ∀ (i : Instr) (s t : State), exec i s = .next t →
    (∃ tt, TrapEntered s t tt) ∨ InErrorMode s t ∨
      (HiddenKept s t ∧ (opensWindow i = false → t.pending = s.pending.tick) ∧
        ((uses i).dcti = false → t.dctiPrev = .none))

/-- Delayed control-transfer couples (43_branch.md rule R240, D21): after a conditional branch whose delay instruction
executes, and only then, every delayed control transfer is refused; Ticc, SAVE and RESTORE are not. -/
def Obligations.DctiCoupleRefusals : Prop :=
  (∀ (s : State) (k : Cond) (a : Bool) (disp22 : BitVec 22) (disp30 : BitVec 30) (rd rs1 : RegIdx) (op2 : Operand2),
    s.dctiPrev = .cond →
      ∀ j ∈ [branchOf k a disp22, .call disp30, .jmpl rd rs1 op2, .rett rs1 op2],
        runInstr s j = .refused .dctiCouple) ∧
  (∀ (s : State) (i : Instr), runInstr s i = .refused .dctiCouple ↔
    s.dctiPrev = .cond ∧
      ((∃ k a disp22, i = branchOf k a disp22) ∨ (∃ disp30, i = .call disp30) ∨ (∃ rd rs1 op2, i = .jmpl rd rs1 op2) ∨
        ∃ rs1 op2, i = .rett rs1 op2)) ∧
  (∀ (s : State) (k : Cond) (rd rs1 : RegIdx) (op2 : Operand2) (num : TrapNumber),
    ∀ j ∈ [trapOf k rs1 num, .save rd rs1 op2, .restore rd rs1 op2], runInstr s j ≠ .refused .dctiCouple) ∧
  ∀ (i : Instr) (s t : State), s.errorMode = false → exec i s = .next t → t.errorMode = false →
    (t.dctiPrev = .cond ↔ ∃ k a disp22, i = branchOf k a disp22 ∧ k ≠ .a ∧ (condTrue k s.psr.icc = true ∨ a = false)) ∧
    (t.dctiPrev = .uncond →
      (∃ disp22, i = .ba false disp22) ∨ (∃ disp30, i = .call disp30) ∨ (∃ rd rs1 op2, i = .jmpl rd rs1 op2) ∨
        ∃ rs1 op2, i = .rett rs1 op2)

/-- The end of a run (00_scope.md rule R17, D28; 43_branch.md rule R238): at a branch always to itself the machine
goes on, with a = 1 executing only the branch forever, with a = 0 the branch and its delay instruction. -/
def Obligations.EndOfRunLoops : Prop :=
  ∀ (s : State) (a : Bool), s.errorMode = false → s.inputs = [] → s.dmaPending = [] → s.accessible s.pc 4 = true →
    s.fetchesStored = false → s.dctiPrev ≠ .cond → s.npc = s.pc + 4 →
    decodeBytes s.cfg s.fetchBytes = .instr (.ba a 0) →
      s.atEnd = true ∧
      (a = true → ∃ t, step s = .next t ∧ OnlyMoves s t s.pc s.npc .none ∧ t.atEnd = true) ∧
      (a = false → ∃ t, step s = .next t ∧ OnlyMoves s t s.npc s.pc .uncond)

end
end

