-- ==== Sys2Proof/Laws/Encoding.lean ====
section
/-! SUPPORT. The fields of an encoded word and the identifying bits of each format (30_encoding.md rules R91 to R96). -/

namespace Sys2Proof

/-! ## Format 3 -/

@[simp] theorem opField_format3 (op : BitVec 2) (rd : BitVec 5) (op3 : BitVec 6) (rs1 : BitVec 5) (i : BitVec 1) (low : BitVec 13) : opField (encodeFormat3 op rd op3 rs1 i low) = op := by
  show @BitVec.extractLsb' (2+5+6+5+1+13) 30 2 (op ++ rd ++ op3 ++ rs1 ++ i ++ low) = _
  rw [BitVec.extractLsb'_append_eq_of_le (by decide),
    BitVec.extractLsb'_append_eq_of_le (by decide),
    BitVec.extractLsb'_append_eq_of_le (by decide),
    BitVec.extractLsb'_append_eq_of_le (by decide),
    BitVec.extractLsb'_append_eq_of_le (by decide), BitVec.extractLsb'_eq_self]

@[simp] theorem rdField_format3 (op : BitVec 2) (rd : BitVec 5) (op3 : BitVec 6) (rs1 : BitVec 5) (i : BitVec 1) (low : BitVec 13) : rdField (encodeFormat3 op rd op3 rs1 i low) = rd := by
  show @BitVec.extractLsb' (2+5+6+5+1+13) 25 5 (op ++ rd ++ op3 ++ rs1 ++ i ++ low) = _
  rw [BitVec.extractLsb'_append_eq_of_le (by decide),
    BitVec.extractLsb'_append_eq_of_le (by decide),
    BitVec.extractLsb'_append_eq_of_le (by decide),
    BitVec.extractLsb'_append_eq_of_le (by decide),
    BitVec.extractLsb'_append_eq_of_add_le (by decide), BitVec.extractLsb'_eq_self]

@[simp] theorem aField_format3 (op : BitVec 2) (rd : BitVec 5) (op3 : BitVec 6) (rs1 : BitVec 5) (i : BitVec 1) (low : BitVec 13) : aField (encodeFormat3 op rd op3 rs1 i low) = rd.extractLsb' 4 1 := by
  show @BitVec.extractLsb' (2+5+6+5+1+13) 29 1 (op ++ rd ++ op3 ++ rs1 ++ i ++ low) = _
  rw [BitVec.extractLsb'_append_eq_of_le (by decide),
    BitVec.extractLsb'_append_eq_of_le (by decide),
    BitVec.extractLsb'_append_eq_of_le (by decide),
    BitVec.extractLsb'_append_eq_of_le (by decide),
    BitVec.extractLsb'_append_eq_of_add_le (by decide)]

@[simp] theorem condField_format3 (op : BitVec 2) (rd : BitVec 5) (op3 : BitVec 6) (rs1 : BitVec 5) (i : BitVec 1) (low : BitVec 13) : condField (encodeFormat3 op rd op3 rs1 i low) = rd.extractLsb' 0 4 := by
  show @BitVec.extractLsb' (2+5+6+5+1+13) 25 4 (op ++ rd ++ op3 ++ rs1 ++ i ++ low) = _
  rw [BitVec.extractLsb'_append_eq_of_le (by decide),
    BitVec.extractLsb'_append_eq_of_le (by decide),
    BitVec.extractLsb'_append_eq_of_le (by decide),
    BitVec.extractLsb'_append_eq_of_le (by decide),
    BitVec.extractLsb'_append_eq_of_add_le (by decide)]

@[simp] theorem op3Field_format3 (op : BitVec 2) (rd : BitVec 5) (op3 : BitVec 6) (rs1 : BitVec 5) (i : BitVec 1) (low : BitVec 13) : op3Field (encodeFormat3 op rd op3 rs1 i low) = op3 := by
  show @BitVec.extractLsb' (2+5+6+5+1+13) 19 6 (op ++ rd ++ op3 ++ rs1 ++ i ++ low) = _
  rw [BitVec.extractLsb'_append_eq_of_le (by decide),
    BitVec.extractLsb'_append_eq_of_le (by decide),
    BitVec.extractLsb'_append_eq_of_le (by decide),
    BitVec.extractLsb'_append_eq_of_add_le (by decide), BitVec.extractLsb'_eq_self]

@[simp] theorem rs1Field_format3 (op : BitVec 2) (rd : BitVec 5) (op3 : BitVec 6) (rs1 : BitVec 5) (i : BitVec 1) (low : BitVec 13) : rs1Field (encodeFormat3 op rd op3 rs1 i low) = rs1 := by
  show @BitVec.extractLsb' (2+5+6+5+1+13) 14 5 (op ++ rd ++ op3 ++ rs1 ++ i ++ low) = _
  rw [BitVec.extractLsb'_append_eq_of_le (by decide),
    BitVec.extractLsb'_append_eq_of_le (by decide),
    BitVec.extractLsb'_append_eq_of_add_le (by decide), BitVec.extractLsb'_eq_self]

@[simp] theorem iField_format3 (op : BitVec 2) (rd : BitVec 5) (op3 : BitVec 6) (rs1 : BitVec 5) (i : BitVec 1) (low : BitVec 13) : iField (encodeFormat3 op rd op3 rs1 i low) = i := by
  show @BitVec.extractLsb' (2+5+6+5+1+13) 13 1 (op ++ rd ++ op3 ++ rs1 ++ i ++ low) = _
  rw [BitVec.extractLsb'_append_eq_of_le (by decide),
    BitVec.extractLsb'_append_eq_of_add_le (by decide), BitVec.extractLsb'_eq_self]

@[simp] theorem simm13Field_format3 (op : BitVec 2) (rd : BitVec 5) (op3 : BitVec 6) (rs1 : BitVec 5) (i : BitVec 1) (low : BitVec 13) : simm13Field (encodeFormat3 op rd op3 rs1 i low) = low := by
  show @BitVec.extractLsb' (2+5+6+5+1+13) 0 13 (op ++ rd ++ op3 ++ rs1 ++ i ++ low) = _
  rw [BitVec.extractLsb'_append_eq_of_add_le (by decide), BitVec.extractLsb'_eq_self]

@[simp] theorem asiField_format3 (op : BitVec 2) (rd : BitVec 5) (op3 : BitVec 6) (rs1 : BitVec 5) (i : BitVec 1) (low : BitVec 13) : asiField (encodeFormat3 op rd op3 rs1 i low) = low.extractLsb' 5 8 := by
  show @BitVec.extractLsb' (2+5+6+5+1+13) 5 8 (op ++ rd ++ op3 ++ rs1 ++ i ++ low) = _
  rw [BitVec.extractLsb'_append_eq_of_add_le (by decide)]

@[simp] theorem rs2Field_format3 (op : BitVec 2) (rd : BitVec 5) (op3 : BitVec 6) (rs1 : BitVec 5) (i : BitVec 1) (low : BitVec 13) : rs2Field (encodeFormat3 op rd op3 rs1 i low) = low.extractLsb' 0 5 := by
  show @BitVec.extractLsb' (2+5+6+5+1+13) 0 5 (op ++ rd ++ op3 ++ rs1 ++ i ++ low) = _
  rw [BitVec.extractLsb'_append_eq_of_add_le (by decide)]

@[simp] theorem ticcHighField_format3 (op : BitVec 2) (rd : BitVec 5) (op3 : BitVec 6) (rs1 : BitVec 5) (i : BitVec 1) (low : BitVec 13) : ticcHighField (encodeFormat3 op rd op3 rs1 i low) = low.extractLsb' 7 6 := by
  show @BitVec.extractLsb' (2+5+6+5+1+13) 7 6 (op ++ rd ++ op3 ++ rs1 ++ i ++ low) = _
  rw [BitVec.extractLsb'_append_eq_of_add_le (by decide)]

@[simp] theorem imm7Field_format3 (op : BitVec 2) (rd : BitVec 5) (op3 : BitVec 6) (rs1 : BitVec 5) (i : BitVec 1) (low : BitVec 13) : imm7Field (encodeFormat3 op rd op3 rs1 i low) = low.extractLsb' 0 7 := by
  show @BitVec.extractLsb' (2+5+6+5+1+13) 0 7 (op ++ rd ++ op3 ++ rs1 ++ i ++ low) = _
  rw [BitVec.extractLsb'_append_eq_of_add_le (by decide)]

/-! ## Format 2 -/

@[simp] theorem opField_format2 (rd : BitVec 5) (op2 : BitVec 3) (imm22 : BitVec 22) : opField (encodeFormat2 rd op2 imm22) = 0b00#2 := by
  show @BitVec.extractLsb' (2+5+3+22) 30 2 (0b00#2 ++ rd ++ op2 ++ imm22) = _
  rw [BitVec.extractLsb'_append_eq_of_le (by decide),
    BitVec.extractLsb'_append_eq_of_le (by decide),
    BitVec.extractLsb'_append_eq_of_le (by decide), BitVec.extractLsb'_eq_self]

@[simp] theorem rdField_format2 (rd : BitVec 5) (op2 : BitVec 3) (imm22 : BitVec 22) : rdField (encodeFormat2 rd op2 imm22) = rd := by
  show @BitVec.extractLsb' (2+5+3+22) 25 5 (0b00#2 ++ rd ++ op2 ++ imm22) = _
  rw [BitVec.extractLsb'_append_eq_of_le (by decide),
    BitVec.extractLsb'_append_eq_of_le (by decide),
    BitVec.extractLsb'_append_eq_of_add_le (by decide), BitVec.extractLsb'_eq_self]

@[simp] theorem aField_format2 (rd : BitVec 5) (op2 : BitVec 3) (imm22 : BitVec 22) : aField (encodeFormat2 rd op2 imm22) = rd.extractLsb' 4 1 := by
  show @BitVec.extractLsb' (2+5+3+22) 29 1 (0b00#2 ++ rd ++ op2 ++ imm22) = _
  rw [BitVec.extractLsb'_append_eq_of_le (by decide),
    BitVec.extractLsb'_append_eq_of_le (by decide),
    BitVec.extractLsb'_append_eq_of_add_le (by decide)]

@[simp] theorem condField_format2 (rd : BitVec 5) (op2 : BitVec 3) (imm22 : BitVec 22) : condField (encodeFormat2 rd op2 imm22) = rd.extractLsb' 0 4 := by
  show @BitVec.extractLsb' (2+5+3+22) 25 4 (0b00#2 ++ rd ++ op2 ++ imm22) = _
  rw [BitVec.extractLsb'_append_eq_of_le (by decide),
    BitVec.extractLsb'_append_eq_of_le (by decide),
    BitVec.extractLsb'_append_eq_of_add_le (by decide)]

@[simp] theorem op2Field_format2 (rd : BitVec 5) (op2 : BitVec 3) (imm22 : BitVec 22) : op2Field (encodeFormat2 rd op2 imm22) = op2 := by
  show @BitVec.extractLsb' (2+5+3+22) 22 3 (0b00#2 ++ rd ++ op2 ++ imm22) = _
  rw [BitVec.extractLsb'_append_eq_of_le (by decide),
    BitVec.extractLsb'_append_eq_of_add_le (by decide), BitVec.extractLsb'_eq_self]

@[simp] theorem imm22Field_format2 (rd : BitVec 5) (op2 : BitVec 3) (imm22 : BitVec 22) : imm22Field (encodeFormat2 rd op2 imm22) = imm22 := by
  show @BitVec.extractLsb' (2+5+3+22) 0 22 (0b00#2 ++ rd ++ op2 ++ imm22) = _
  rw [BitVec.extractLsb'_append_eq_of_add_le (by decide), BitVec.extractLsb'_eq_self]

/-! ## Format 1 -/

@[simp] theorem opField_call (disp30 : BitVec 30) : opField (encodeCall disp30) = 0b01#2 := by
  show @BitVec.extractLsb' (2+30) 30 2 (0b01#2 ++ disp30) = _
  rw [BitVec.extractLsb'_append_eq_of_le (by decide), BitVec.extractLsb'_eq_self]

@[simp] theorem disp30Field_call (disp30 : BitVec 30) : disp30Field (encodeCall disp30) = disp30 := by
  show @BitVec.extractLsb' (2+30) 0 30 (0b01#2 ++ disp30) = _
  rw [BitVec.extractLsb'_append_eq_of_add_le (by decide), BitVec.extractLsb'_eq_self]

/-! ## Identifying bits -/

/-- op and op3 of a format 3 word. -/
theorem format3_and (op : BitVec 2) (rd : BitVec 5) (op3 : BitVec 6) (rs1 : BitVec 5) (i : BitVec 1)
    (low : BitVec 13) :
    encodeFormat3 op rd op3 rs1 i low &&& 0xC1F80000 = op ++ 0#5 ++ op3 ++ 0#5 ++ 0#1 ++ 0#13 := by
  rw [show (0xC1F80000 : Word) = BitVec.allOnes 2 ++ 0#5 ++ BitVec.allOnes 6 ++ 0#5 ++ 0#1 ++ 0#13 from rfl]
  show @HAnd.hAnd (BitVec (2+5+6+5+1+13)) (BitVec (2+5+6+5+1+13)) (BitVec (2+5+6+5+1+13)) _
    (op ++ rd ++ op3 ++ rs1 ++ i ++ low) (BitVec.allOnes 2 ++ 0#5 ++ BitVec.allOnes 6 ++ 0#5 ++ 0#1 ++ 0#13) = _
  simp only [BitVec.and_append, BitVec.and_allOnes, BitVec.and_zero]

/-- op, the four low bits of rd and op3 of a format 3 word: what identifies a trap instruction. -/
theorem format3_and_cond (op : BitVec 2) (rd : BitVec 5) (op3 : BitVec 6) (rs1 : BitVec 5) (i : BitVec 1)
    (low : BitVec 13) :
    encodeFormat3 op rd op3 rs1 i low &&& 0xDFF80000 = op ++ (rd &&& 15#5) ++ op3 ++ 0#5 ++ 0#1 ++ 0#13 := by
  rw [show (0xDFF80000 : Word) = BitVec.allOnes 2 ++ 15#5 ++ BitVec.allOnes 6 ++ 0#5 ++ 0#1 ++ 0#13 from rfl]
  show @HAnd.hAnd (BitVec (2+5+6+5+1+13)) (BitVec (2+5+6+5+1+13)) (BitVec (2+5+6+5+1+13)) _
    (op ++ rd ++ op3 ++ rs1 ++ i ++ low) (BitVec.allOnes 2 ++ 15#5 ++ BitVec.allOnes 6 ++ 0#5 ++ 0#1 ++ 0#13) = _
  simp only [BitVec.and_append, BitVec.and_allOnes, BitVec.and_zero]

/-- op, op3 and rs1 of a format 3 word: what identifies RDY. -/
theorem format3_and_rs1 (op : BitVec 2) (rd : BitVec 5) (op3 : BitVec 6) (rs1 : BitVec 5) (i : BitVec 1)
    (low : BitVec 13) :
    encodeFormat3 op rd op3 rs1 i low &&& 0xC1FFC000 = op ++ 0#5 ++ op3 ++ rs1 ++ 0#1 ++ 0#13 := by
  rw [show (0xC1FFC000 : Word) = BitVec.allOnes 2 ++ 0#5 ++ BitVec.allOnes 6 ++ BitVec.allOnes 5 ++ 0#1 ++ 0#13 from rfl]
  show @HAnd.hAnd (BitVec (2+5+6+5+1+13)) (BitVec (2+5+6+5+1+13)) (BitVec (2+5+6+5+1+13)) _
    (op ++ rd ++ op3 ++ rs1 ++ i ++ low)
    (BitVec.allOnes 2 ++ 0#5 ++ BitVec.allOnes 6 ++ BitVec.allOnes 5 ++ 0#1 ++ 0#13) = _
  simp only [BitVec.and_append, BitVec.and_allOnes, BitVec.and_zero]

/-- op, rd and op3 of a format 3 word: what identifies WRY. -/
theorem format3_and_rd (op : BitVec 2) (rd : BitVec 5) (op3 : BitVec 6) (rs1 : BitVec 5) (i : BitVec 1)
    (low : BitVec 13) :
    encodeFormat3 op rd op3 rs1 i low &&& 0xFFF80000 = op ++ rd ++ op3 ++ 0#5 ++ 0#1 ++ 0#13 := by
  rw [show (0xFFF80000 : Word) = BitVec.allOnes 2 ++ BitVec.allOnes 5 ++ BitVec.allOnes 6 ++ 0#5 ++ 0#1 ++ 0#13 from rfl]
  show @HAnd.hAnd (BitVec (2+5+6+5+1+13)) (BitVec (2+5+6+5+1+13)) (BitVec (2+5+6+5+1+13)) _
    (op ++ rd ++ op3 ++ rs1 ++ i ++ low)
    (BitVec.allOnes 2 ++ BitVec.allOnes 5 ++ BitVec.allOnes 6 ++ 0#5 ++ 0#1 ++ 0#13) = _
  simp only [BitVec.and_append, BitVec.and_allOnes, BitVec.and_zero]

/-- op and op2 of a format 2 word. -/
theorem format2_and (rd : BitVec 5) (op2 : BitVec 3) (imm22 : BitVec 22) :
    encodeFormat2 rd op2 imm22 &&& 0xC1C00000 = 0#2 ++ 0#5 ++ op2 ++ 0#22 := by
  rw [show (0xC1C00000 : Word) = BitVec.allOnes 2 ++ 0#5 ++ BitVec.allOnes 3 ++ 0#22 from rfl]
  show @HAnd.hAnd (BitVec (2+5+3+22)) (BitVec (2+5+3+22)) (BitVec (2+5+3+22)) _
    (0#2 ++ rd ++ op2 ++ imm22) (BitVec.allOnes 2 ++ 0#5 ++ BitVec.allOnes 3 ++ 0#22) = _
  simp only [BitVec.and_append, BitVec.and_allOnes, BitVec.and_zero]

/-- op, the four low bits of rd and op2 of a format 2 word: what identifies a branch. -/
theorem format2_and_cond (rd : BitVec 5) (op2 : BitVec 3) (imm22 : BitVec 22) :
    encodeFormat2 rd op2 imm22 &&& 0xDFC00000 = 0#2 ++ (rd &&& 15#5) ++ op2 ++ 0#22 := by
  rw [show (0xDFC00000 : Word) = BitVec.allOnes 2 ++ 15#5 ++ BitVec.allOnes 3 ++ 0#22 from rfl]
  show @HAnd.hAnd (BitVec (2+5+3+22)) (BitVec (2+5+3+22)) (BitVec (2+5+3+22)) _
    (0#2 ++ rd ++ op2 ++ imm22) (BitVec.allOnes 2 ++ 15#5 ++ BitVec.allOnes 3 ++ 0#22) = _
  simp only [BitVec.and_append, BitVec.and_allOnes, BitVec.and_zero]

/-- op of a CALL. -/
theorem call_and (disp30 : BitVec 30) : encodeCall disp30 &&& 0xC0000000 = 0b01#2 ++ 0#30 := by
  rw [show (0xC0000000 : Word) = BitVec.allOnes 2 ++ 0#30 from rfl]
  show @HAnd.hAnd (BitVec (2+30)) (BitVec (2+30)) (BitVec (2+30)) _ (0b01#2 ++ disp30) (BitVec.allOnes 2 ++ 0#30) = _
  simp only [BitVec.and_append, BitVec.and_allOnes, BitVec.and_zero]

/-! ## Words and their fields -/

/-- Every word is the format 3 word of its fields. -/
theorem format3_eta (w : Word) :
    w = encodeFormat3 (opField w) (rdField w) (op3Field w) (rs1Field w) (iField w) (simm13Field w) := by
  rw [encodeFormat3]
  apply BitVec.eq_of_getLsbD_eq
  intro i hi
  simp only [BitVec.getLsbD_append, BitVec.getLsbD_extractLsb', opField, rdField, op3Field, rs1Field, iField,
    simm13Field]
  by_cases h1 : i < 13
  · simp [h1]
  by_cases h2 : i < 14
  · simp [h1, show i - 13 < 1 by omega, show 13 + (i - 13) = i by omega]
  by_cases h3 : i < 19
  · simp [h1, show ¬ i - 13 < 1 by omega, show i - 13 - 1 < 5 by omega, show 14 + (i - 13 - 1) = i by omega]
  by_cases h4 : i < 25
  · simp [h1, show ¬ i - 13 < 1 by omega, show ¬ i - 13 - 1 < 5 by omega, show i - 13 - 1 - 5 < 6 by omega,
      show 19 + (i - 13 - 1 - 5) = i by omega]
  by_cases h5 : i < 30
  · simp [h1, show ¬ i - 13 < 1 by omega, show ¬ i - 13 - 1 < 5 by omega, show ¬ i - 13 - 1 - 5 < 6 by omega,
      show i - 13 - 1 - 5 - 6 < 5 by omega, show 25 + (i - 13 - 1 - 5 - 6) = i by omega]
  · simp [h1, show ¬ i - 13 < 1 by omega, show ¬ i - 13 - 1 < 5 by omega, show ¬ i - 13 - 1 - 5 < 6 by omega,
      show ¬ i - 13 - 1 - 5 - 6 < 5 by omega, show i - 13 - 1 - 5 - 6 - 5 < 2 by omega,
      show 30 + (i - 13 - 1 - 5 - 6 - 5) = i by omega]

/-- Every word is the format 2 word of its fields, under op = 00. -/
theorem format2_eta (w : Word) (h : opField w = 0b00#2) :
    w = encodeFormat2 (rdField w) (op2Field w) (imm22Field w) := by
  rw [encodeFormat2, ← h]
  apply BitVec.eq_of_getLsbD_eq
  intro i hi
  simp only [BitVec.getLsbD_append, BitVec.getLsbD_extractLsb', opField, rdField, op2Field, imm22Field]
  by_cases h1 : i < 22
  · simp [h1]
  by_cases h2 : i < 25
  · simp [h1, show i - 22 < 3 by omega, show 22 + (i - 22) = i by omega]
  by_cases h3 : i < 30
  · simp [h1, show ¬ i - 22 < 3 by omega, show i - 22 - 3 < 5 by omega, show 25 + (i - 22 - 3) = i by omega]
  · simp [h1, show ¬ i - 22 < 3 by omega, show ¬ i - 22 - 3 < 5 by omega, show i - 22 - 3 - 5 < 2 by omega,
      show 30 + (i - 22 - 3 - 5) = i by omega]

/-- Every word is the format 1 word of its displacement, under op = 01. -/
theorem format1_eta (w : Word) (h : opField w = 0b01#2) : w = encodeCall (disp30Field w) := by
  rw [encodeCall, ← h]
  apply BitVec.eq_of_getLsbD_eq
  intro i hi
  simp only [BitVec.getLsbD_append, BitVec.getLsbD_extractLsb', opField, disp30Field]
  by_cases h1 : i < 30
  · simp [h1]
  · simp [h1, show i - 30 < 2 by omega, show 30 + (i - 30) = i by omega]

/-- A word of format 3 whose lower 19 bits are given in one piece. -/
theorem format3_of_rest (op : BitVec 2) (rd : BitVec 5) (op3 : BitVec 6) (rest : BitVec 19) :
    (op ++ rd ++ op3 ++ rest : Word) =
      encodeFormat3 op rd op3 (rest.extractLsb' 14 5) (rest.extractLsb' 13 1) (rest.extractLsb' 0 13) := by
  rw [encodeFormat3]
  apply BitVec.eq_of_getLsbD_eq
  intro i hi
  simp only [BitVec.getLsbD_append, BitVec.getLsbD_extractLsb']
  by_cases h1 : i < 13
  · simp [h1, show i < 19 by omega]
  by_cases h2 : i < 14
  · simp [h1, show i - 13 < 1 by omega, show i < 19 by omega, show 13 + (i - 13) = i by omega]
  by_cases h3 : i < 19
  · simp [h1, show ¬ i - 13 < 1 by omega, show i < 19 by omega, show i - 13 - 1 < 5 by omega,
      show 14 + (i - 13 - 1) = i by omega]
  · simp [h1, show ¬ i - 13 < 1 by omega, h3, show ¬ i - 13 - 1 < 5 by omega, show i - 13 - 1 - 5 = i - 19 by omega]

/-- A word of format 3 whose lower 14 bits are given in one piece. -/
theorem format3_of_rest14 (op : BitVec 2) (rd : BitVec 5) (op3 : BitVec 6) (rs1 : BitVec 5) (rest : BitVec 14) :
    (op ++ rd ++ op3 ++ rs1 ++ rest : Word) =
      encodeFormat3 op rd op3 rs1 (rest.extractLsb' 13 1) (rest.extractLsb' 0 13) := by
  rw [encodeFormat3]
  apply BitVec.eq_of_getLsbD_eq
  intro i hi
  simp only [BitVec.getLsbD_append, BitVec.getLsbD_extractLsb']
  by_cases h1 : i < 13
  · simp [h1, show i < 14 by omega]
  by_cases h2 : i < 14
  · simp [h1, show i - 13 < 1 by omega, show i < 14 by omega, show 13 + (i - 13) = i by omega]
  · simp [h1, show ¬ i - 13 < 1 by omega, h2, show i - 13 - 1 = i - 14 by omega]

/-- The lower 13 bits of a register form with zero bits 12:5. -/
theorem low_of_reserved_zero (low : BitVec 13) (h : low.extractLsb' 5 8 = 0#8) : low = 0#8 ++ low.extractLsb' 0 5 := by
  rw [← h]
  apply BitVec.eq_of_getLsbD_eq
  intro i hi
  simp only [BitVec.getLsbD_append, BitVec.getLsbD_extractLsb']
  by_cases h1 : i < 5
  · simp [h1]
  · simp [h1, show i - 5 < 8 by omega, show 5 + (i - 5) = i by omega]

theorem extract_high {m n : Nat} (x : BitVec m) (y : BitVec n) : (x ++ y).extractLsb' n m = x := by
  rw [BitVec.extractLsb'_append_eq_of_le (Nat.le_refl n), Nat.sub_self, BitVec.extractLsb'_eq_self]

theorem extract_low {m n : Nat} (x : BitVec m) (y : BitVec n) : (x ++ y).extractLsb' 0 n = y := by
  rw [BitVec.extractLsb'_append_eq_of_add_le (by omega), BitVec.extractLsb'_eq_self]

/-! ## Decoding the operand forms -/

/-- Operand 2 is read back from its bits. -/
theorem withOperand2_encode (cfg : Config) (op : BitVec 2) (rd : BitVec 5) (op3 : BitVec 6) (rs1 : BitVec 5)
    (o : Operand2) (k : Operand2 → Instr) :
    withOperand2 cfg (encodeFormat3 op rd op3 rs1 o.iBit o.low) true k = .instr (k o) := by
  simp only [withOperand2, iField_format3, simm13Field_format3, asiField_format3, rs2Field_format3]
  cases o with
  | reg rs2 =>
    simp [Operand2.iBit, Operand2.low, extract_high (0#8) rs2, extract_low (0#8) rs2, reservedCheck]
  | imm i => simp [Operand2.iBit, Operand2.low, reservedCheck]

/-- A shift count is read back from its bits. -/
theorem withShiftCount_encode (cfg : Config) (op : BitVec 2) (rd : BitVec 5) (op3 : BitVec 6) (rs1 : BitVec 5)
    (o : ShiftCount) (k : ShiftCount → Instr) :
    withShiftCount cfg (encodeFormat3 op rd op3 rs1 o.iBit o.low) k = .instr (k o) := by
  simp only [withShiftCount, iField_format3, asiField_format3, rs2Field_format3]
  cases o with
  | reg rs2 =>
    simp [ShiftCount.iBit, ShiftCount.low, extract_high (0#8) rs2, extract_low (0#8) rs2, reservedCheck]
  | imm c =>
    simp [ShiftCount.iBit, ShiftCount.low, extract_high (0#8) c, extract_low (0#8) c, reservedCheck]

/-- The operand of a trap instruction is read back from its bits. -/
theorem withTrapNumber_encode (cfg : Config) (op : BitVec 2) (cond : BitVec 4) (op3 : BitVec 6) (rs1 : BitVec 5)
    (o : TrapNumber) (k : TrapNumber → Instr) :
    withTrapNumber cfg (encodeFormat3 op (0#1 ++ cond) op3 rs1 o.iBit o.low) k = .instr (k o) := by
  simp only [withTrapNumber, iField_format3, asiField_format3, rs2Field_format3, aField_format3,
    ticcHighField_format3, imm7Field_format3]
  cases o with
  | reg rs2 =>
    simp [TrapNumber.iBit, TrapNumber.low, extract_high (0#8) rs2, extract_low (0#8) rs2, extract_high (0#1) cond,
      reservedCheck]
  | imm n =>
    simp [TrapNumber.iBit, TrapNumber.low, extract_high (0#6) n, extract_low (0#6) n, extract_high (0#1) cond,
      reservedCheck]

/-- What a word read with operand 2 was: under RESERVED_POLICY = refuse its reserved bits were zero. -/
theorem withOperand2_instr {cfg : Config} {op : BitVec 2} {rd rs1 : BitVec 5} {op3 : BitVec 6} {i : BitVec 1}
    {low : BitVec 13} {ok : Bool} {k : Operand2 → Instr} {x : Instr}
    (h : withOperand2 cfg (encodeFormat3 op rd op3 rs1 i low) ok k = .instr x) :
    ∃ o : Operand2, x = k o ∧ (cfg.reservedPolicy = .refuse → ok = true ∧ i = o.iBit ∧ low = o.low) := by
  simp only [withOperand2, reservedCheck, iField_format3, simm13Field_format3, asiField_format3,
    rs2Field_format3] at h
  by_cases hi : i = 1#1
  · subst hi
    rw [if_pos rfl] at h
    split at h
    · cases h
      exact ⟨.imm low, rfl, fun hr => ⟨by simp_all, rfl, rfl⟩⟩
    · cases h
  · have hi0 : i = 0#1 := (show ∀ j : BitVec 1, ¬j = 1#1 → j = 0#1 by decide) i hi
    subst hi0
    rw [if_neg (by decide)] at h
    split at h
    · rename_i hc
      cases h
      exact ⟨.reg (low.extractLsb' 0 5), rfl, fun hr => by
        simp [hr] at hc
        exact ⟨hc.1, rfl, low_of_reserved_zero low hc.2⟩⟩
    · cases h

/-- The word of a branch. -/
theorem decode_encodeBicc (cfg : Config) (cond : BitVec 4) (a : Bool) (disp22 : BitVec 22) :
    decode cfg (encodeBicc cond a disp22) = .instr (biccOfCond cond a disp22) := by
  simp only [decode, encodeBicc, opField_format2, decodeFormat2, op2Field_format2, imm22Field_format2,
    condField_format2, aField_format2, extract_high (BitVec.ofBool a) cond, extract_low (BitVec.ofBool a) cond]
  cases a <;> rfl

/-- The word of a trap instruction. -/
theorem decode_encodeTicc (cfg : Config) (cond : BitVec 4) (rs1 : RegIdx) (num : TrapNumber) :
    decode cfg (encodeTicc cond rs1 num) = .instr (ticcOfCond cond rs1 num) := by
  simp only [decode, encodeTicc, opField_format3, decodeArith, op3Field_format3, rs1Field_format3, condField_format3,
    withTrapNumber_encode, extract_low (0#1) cond]

end Sys2Proof
end

