-- ==== Sys2Proof/Laws/State.lean ====
section
/-! SUPPORT. What each update of the state leaves in each field, and which reads see through it: one lemma per field per
update, so that no later proof unfolds a record update. -/

namespace Sys2Proof.Machine

variable (s : State)

/-! `writeRegAt`. -/

@[simp] theorem writeRegAt_cfg (w : BitVec 5) (i : RegIdx) (v : Word) : (s.writeRegAt w i v).cfg = s.cfg := rfl
@[simp] theorem writeRegAt_regs (w : BitVec 5) (i : RegIdx) (v : Word) : (s.writeRegAt w i v).regs = s.regs.write (physReg s.cfg.nwindows w i) v := rfl
@[simp] theorem writeRegAt_pc (w : BitVec 5) (i : RegIdx) (v : Word) : (s.writeRegAt w i v).pc = s.pc := rfl
@[simp] theorem writeRegAt_npc (w : BitVec 5) (i : RegIdx) (v : Word) : (s.writeRegAt w i v).npc = s.npc := rfl
@[simp] theorem writeRegAt_psr (w : BitVec 5) (i : RegIdx) (v : Word) : (s.writeRegAt w i v).psr = s.psr := rfl
@[simp] theorem writeRegAt_wim (w : BitVec 5) (i : RegIdx) (v : Word) : (s.writeRegAt w i v).wim = s.wim := rfl
@[simp] theorem writeRegAt_tbr (w : BitVec 5) (i : RegIdx) (v : Word) : (s.writeRegAt w i v).tbr = s.tbr := rfl
@[simp] theorem writeRegAt_y (w : BitVec 5) (i : RegIdx) (v : Word) : (s.writeRegAt w i v).y = s.y := rfl
@[simp] theorem writeRegAt_mem (w : BitVec 5) (i : RegIdx) (v : Word) : (s.writeRegAt w i v).mem = s.mem := rfl
@[simp] theorem writeRegAt_storedTo (w : BitVec 5) (i : RegIdx) (v : Word) : (s.writeRegAt w i v).storedTo = s.storedTo := rfl
@[simp] theorem writeRegAt_pending (w : BitVec 5) (i : RegIdx) (v : Word) : (s.writeRegAt w i v).pending = s.pending := rfl
@[simp] theorem writeRegAt_dctiPrev (w : BitVec 5) (i : RegIdx) (v : Word) : (s.writeRegAt w i v).dctiPrev = s.dctiPrev := rfl
@[simp] theorem writeRegAt_errorMode (w : BitVec 5) (i : RegIdx) (v : Word) : (s.writeRegAt w i v).errorMode = s.errorMode := rfl
@[simp] theorem writeRegAt_inputs (w : BitVec 5) (i : RegIdx) (v : Word) : (s.writeRegAt w i v).inputs = s.inputs := rfl
@[simp] theorem writeRegAt_dmaPending (w : BitVec 5) (i : RegIdx) (v : Word) : (s.writeRegAt w i v).dmaPending = s.dmaPending := rfl
@[simp] theorem writeRegAt_freeCount (w : BitVec 5) (i : RegIdx) (v : Word) : (s.writeRegAt w i v).freeCount = s.freeCount := rfl
@[simp] theorem writeRegAt_readByte (w : BitVec 5) (i : RegIdx) (v : Word) (x : Word) : (s.writeRegAt w i v).readByte x = s.readByte x := rfl

/-! `writeReg`. -/

@[simp] theorem writeReg_cfg (i : RegIdx) (v : Word) : (s.writeReg i v).cfg = s.cfg := rfl
@[simp] theorem writeReg_regs (i : RegIdx) (v : Word) : (s.writeReg i v).regs = s.regs.write (physReg s.cfg.nwindows s.psr.cwp i) v := rfl
@[simp] theorem writeReg_pc (i : RegIdx) (v : Word) : (s.writeReg i v).pc = s.pc := rfl
@[simp] theorem writeReg_npc (i : RegIdx) (v : Word) : (s.writeReg i v).npc = s.npc := rfl
@[simp] theorem writeReg_psr (i : RegIdx) (v : Word) : (s.writeReg i v).psr = s.psr := rfl
@[simp] theorem writeReg_wim (i : RegIdx) (v : Word) : (s.writeReg i v).wim = s.wim := rfl
@[simp] theorem writeReg_tbr (i : RegIdx) (v : Word) : (s.writeReg i v).tbr = s.tbr := rfl
@[simp] theorem writeReg_y (i : RegIdx) (v : Word) : (s.writeReg i v).y = s.y := rfl
@[simp] theorem writeReg_mem (i : RegIdx) (v : Word) : (s.writeReg i v).mem = s.mem := rfl
@[simp] theorem writeReg_storedTo (i : RegIdx) (v : Word) : (s.writeReg i v).storedTo = s.storedTo := rfl
@[simp] theorem writeReg_pending (i : RegIdx) (v : Word) : (s.writeReg i v).pending = s.pending := rfl
@[simp] theorem writeReg_dctiPrev (i : RegIdx) (v : Word) : (s.writeReg i v).dctiPrev = s.dctiPrev := rfl
@[simp] theorem writeReg_errorMode (i : RegIdx) (v : Word) : (s.writeReg i v).errorMode = s.errorMode := rfl
@[simp] theorem writeReg_inputs (i : RegIdx) (v : Word) : (s.writeReg i v).inputs = s.inputs := rfl
@[simp] theorem writeReg_dmaPending (i : RegIdx) (v : Word) : (s.writeReg i v).dmaPending = s.dmaPending := rfl
@[simp] theorem writeReg_freeCount (i : RegIdx) (v : Word) : (s.writeReg i v).freeCount = s.freeCount := rfl
@[simp] theorem writeReg_readByte (i : RegIdx) (v : Word) (x : Word) : (s.writeReg i v).readByte x = s.readByte x := rfl

/-! `setIcc`. -/

@[simp] theorem setIcc_cfg (f : Icc) : (s.setIcc f).cfg = s.cfg := rfl
@[simp] theorem setIcc_regs (f : Icc) : (s.setIcc f).regs = s.regs := rfl
@[simp] theorem setIcc_pc (f : Icc) : (s.setIcc f).pc = s.pc := rfl
@[simp] theorem setIcc_npc (f : Icc) : (s.setIcc f).npc = s.npc := rfl
@[simp] theorem setIcc_psr (f : Icc) : (s.setIcc f).psr = { s.psr with icc := f } := rfl
@[simp] theorem setIcc_wim (f : Icc) : (s.setIcc f).wim = s.wim := rfl
@[simp] theorem setIcc_tbr (f : Icc) : (s.setIcc f).tbr = s.tbr := rfl
@[simp] theorem setIcc_y (f : Icc) : (s.setIcc f).y = s.y := rfl
@[simp] theorem setIcc_mem (f : Icc) : (s.setIcc f).mem = s.mem := rfl
@[simp] theorem setIcc_storedTo (f : Icc) : (s.setIcc f).storedTo = s.storedTo := rfl
@[simp] theorem setIcc_pending (f : Icc) : (s.setIcc f).pending = s.pending := rfl
@[simp] theorem setIcc_dctiPrev (f : Icc) : (s.setIcc f).dctiPrev = s.dctiPrev := rfl
@[simp] theorem setIcc_errorMode (f : Icc) : (s.setIcc f).errorMode = s.errorMode := rfl
@[simp] theorem setIcc_inputs (f : Icc) : (s.setIcc f).inputs = s.inputs := rfl
@[simp] theorem setIcc_dmaPending (f : Icc) : (s.setIcc f).dmaPending = s.dmaPending := rfl
@[simp] theorem setIcc_freeCount (f : Icc) : (s.setIcc f).freeCount = s.freeCount := rfl
@[simp] theorem setIcc_readRegAt (f : Icc) (k : BitVec 5) (j : RegIdx) : (s.setIcc f).readRegAt k j = s.readRegAt k j := rfl
@[simp] theorem setIcc_readByte (f : Icc) (x : Word) : (s.setIcc f).readByte x = s.readByte x := rfl

/-! `setY`. -/

@[simp] theorem setY_cfg (v : Word) : (s.setY v).cfg = s.cfg := rfl
@[simp] theorem setY_regs (v : Word) : (s.setY v).regs = s.regs := rfl
@[simp] theorem setY_pc (v : Word) : (s.setY v).pc = s.pc := rfl
@[simp] theorem setY_npc (v : Word) : (s.setY v).npc = s.npc := rfl
@[simp] theorem setY_psr (v : Word) : (s.setY v).psr = s.psr := rfl
@[simp] theorem setY_wim (v : Word) : (s.setY v).wim = s.wim := rfl
@[simp] theorem setY_tbr (v : Word) : (s.setY v).tbr = s.tbr := rfl
@[simp] theorem setY_y (v : Word) : (s.setY v).y = v := rfl
@[simp] theorem setY_mem (v : Word) : (s.setY v).mem = s.mem := rfl
@[simp] theorem setY_storedTo (v : Word) : (s.setY v).storedTo = s.storedTo := rfl
@[simp] theorem setY_pending (v : Word) : (s.setY v).pending = s.pending := rfl
@[simp] theorem setY_dctiPrev (v : Word) : (s.setY v).dctiPrev = s.dctiPrev := rfl
@[simp] theorem setY_errorMode (v : Word) : (s.setY v).errorMode = s.errorMode := rfl
@[simp] theorem setY_inputs (v : Word) : (s.setY v).inputs = s.inputs := rfl
@[simp] theorem setY_dmaPending (v : Word) : (s.setY v).dmaPending = s.dmaPending := rfl
@[simp] theorem setY_freeCount (v : Word) : (s.setY v).freeCount = s.freeCount := rfl
@[simp] theorem setY_readRegAt (v : Word) (k : BitVec 5) (j : RegIdx) : (s.setY v).readRegAt k j = s.readRegAt k j := rfl
@[simp] theorem setY_readByte (v : Word) (x : Word) : (s.setY v).readByte x = s.readByte x := rfl

/-! `complete`. -/

@[simp] theorem complete_cfg (pc npc : Word) (d : DctiPrev) : (s.complete pc npc d).cfg = s.cfg := rfl
@[simp] theorem complete_regs (pc npc : Word) (d : DctiPrev) : (s.complete pc npc d).regs = s.regs := rfl
@[simp] theorem complete_pc (pc npc : Word) (d : DctiPrev) : (s.complete pc npc d).pc = pc := rfl
@[simp] theorem complete_npc (pc npc : Word) (d : DctiPrev) : (s.complete pc npc d).npc = npc := rfl
@[simp] theorem complete_psr (pc npc : Word) (d : DctiPrev) : (s.complete pc npc d).psr = s.psr := rfl
@[simp] theorem complete_wim (pc npc : Word) (d : DctiPrev) : (s.complete pc npc d).wim = s.wim := rfl
@[simp] theorem complete_tbr (pc npc : Word) (d : DctiPrev) : (s.complete pc npc d).tbr = s.tbr := rfl
@[simp] theorem complete_y (pc npc : Word) (d : DctiPrev) : (s.complete pc npc d).y = s.y := rfl
@[simp] theorem complete_mem (pc npc : Word) (d : DctiPrev) : (s.complete pc npc d).mem = s.mem := rfl
@[simp] theorem complete_storedTo (pc npc : Word) (d : DctiPrev) : (s.complete pc npc d).storedTo = s.storedTo := rfl
@[simp] theorem complete_pending (pc npc : Word) (d : DctiPrev) : (s.complete pc npc d).pending = s.pending.tick := rfl
@[simp] theorem complete_dctiPrev (pc npc : Word) (d : DctiPrev) : (s.complete pc npc d).dctiPrev = d := rfl
@[simp] theorem complete_errorMode (pc npc : Word) (d : DctiPrev) : (s.complete pc npc d).errorMode = s.errorMode := rfl
@[simp] theorem complete_inputs (pc npc : Word) (d : DctiPrev) : (s.complete pc npc d).inputs = s.inputs := rfl
@[simp] theorem complete_dmaPending (pc npc : Word) (d : DctiPrev) : (s.complete pc npc d).dmaPending = s.dmaPending := rfl
@[simp] theorem complete_freeCount (pc npc : Word) (d : DctiPrev) : (s.complete pc npc d).freeCount = s.freeCount := rfl
@[simp] theorem complete_readRegAt (pc npc : Word) (d : DctiPrev) (k : BitVec 5) (j : RegIdx) : (s.complete pc npc d).readRegAt k j = s.readRegAt k j := rfl
@[simp] theorem complete_readByte (pc npc : Word) (d : DctiPrev) (x : Word) : (s.complete pc npc d).readByte x = s.readByte x := rfl

/-! `advance`. -/

@[simp] theorem advance_cfg : s.advance.cfg = s.cfg := rfl
@[simp] theorem advance_regs : s.advance.regs = s.regs := rfl
@[simp] theorem advance_pc : s.advance.pc = s.npc := rfl
@[simp] theorem advance_npc : s.advance.npc = s.npc + 4 := rfl
@[simp] theorem advance_psr : s.advance.psr = s.psr := rfl
@[simp] theorem advance_wim : s.advance.wim = s.wim := rfl
@[simp] theorem advance_tbr : s.advance.tbr = s.tbr := rfl
@[simp] theorem advance_y : s.advance.y = s.y := rfl
@[simp] theorem advance_mem : s.advance.mem = s.mem := rfl
@[simp] theorem advance_storedTo : s.advance.storedTo = s.storedTo := rfl
@[simp] theorem advance_pending : s.advance.pending = s.pending.tick := rfl
@[simp] theorem advance_dctiPrev : s.advance.dctiPrev = .none := rfl
@[simp] theorem advance_errorMode : s.advance.errorMode = s.errorMode := rfl
@[simp] theorem advance_inputs : s.advance.inputs = s.inputs := rfl
@[simp] theorem advance_dmaPending : s.advance.dmaPending = s.dmaPending := rfl
@[simp] theorem advance_freeCount : s.advance.freeCount = s.freeCount := rfl
@[simp] theorem advance_readRegAt (k : BitVec 5) (j : RegIdx) : s.advance.readRegAt k j = s.readRegAt k j := rfl
@[simp] theorem advance_readByte (x : Word) : s.advance.readByte x = s.readByte x := rfl

/-! `storeByte`. -/

@[simp] theorem storeByte_cfg (a : Word) (b : Byte) : (s.storeByte a b).cfg = s.cfg := rfl
@[simp] theorem storeByte_regs (a : Word) (b : Byte) : (s.storeByte a b).regs = s.regs := rfl
@[simp] theorem storeByte_pc (a : Word) (b : Byte) : (s.storeByte a b).pc = s.pc := rfl
@[simp] theorem storeByte_npc (a : Word) (b : Byte) : (s.storeByte a b).npc = s.npc := rfl
@[simp] theorem storeByte_psr (a : Word) (b : Byte) : (s.storeByte a b).psr = s.psr := rfl
@[simp] theorem storeByte_wim (a : Word) (b : Byte) : (s.storeByte a b).wim = s.wim := rfl
@[simp] theorem storeByte_tbr (a : Word) (b : Byte) : (s.storeByte a b).tbr = s.tbr := rfl
@[simp] theorem storeByte_y (a : Word) (b : Byte) : (s.storeByte a b).y = s.y := rfl
@[simp] theorem storeByte_mem (a : Word) (b : Byte) : (s.storeByte a b).mem = s.mem.write a.toNat b := rfl
@[simp] theorem storeByte_storedTo (a : Word) (b : Byte) : (s.storeByte a b).storedTo = addAddress s.storedTo a.toNat := rfl
@[simp] theorem storeByte_pending (a : Word) (b : Byte) : (s.storeByte a b).pending = s.pending := rfl
@[simp] theorem storeByte_dctiPrev (a : Word) (b : Byte) : (s.storeByte a b).dctiPrev = s.dctiPrev := rfl
@[simp] theorem storeByte_errorMode (a : Word) (b : Byte) : (s.storeByte a b).errorMode = s.errorMode := rfl
@[simp] theorem storeByte_inputs (a : Word) (b : Byte) : (s.storeByte a b).inputs = s.inputs := rfl
@[simp] theorem storeByte_dmaPending (a : Word) (b : Byte) : (s.storeByte a b).dmaPending = s.dmaPending := rfl
@[simp] theorem storeByte_freeCount (a : Word) (b : Byte) : (s.storeByte a b).freeCount = s.freeCount := rfl
@[simp] theorem storeByte_readRegAt (a : Word) (b : Byte) (k : BitVec 5) (j : RegIdx) : (s.storeByte a b).readRegAt k j = s.readRegAt k j := rfl

/-! `storeHalf`. -/

@[simp] theorem storeHalf_cfg (a : Word) (v : BitVec 16) : (s.storeHalf a v).cfg = s.cfg := by simp only [State.storeHalf, storeByte_cfg]
@[simp] theorem storeHalf_regs (a : Word) (v : BitVec 16) : (s.storeHalf a v).regs = s.regs := by simp only [State.storeHalf, storeByte_regs]
@[simp] theorem storeHalf_pc (a : Word) (v : BitVec 16) : (s.storeHalf a v).pc = s.pc := by simp only [State.storeHalf, storeByte_pc]
@[simp] theorem storeHalf_npc (a : Word) (v : BitVec 16) : (s.storeHalf a v).npc = s.npc := by simp only [State.storeHalf, storeByte_npc]
@[simp] theorem storeHalf_psr (a : Word) (v : BitVec 16) : (s.storeHalf a v).psr = s.psr := by simp only [State.storeHalf, storeByte_psr]
@[simp] theorem storeHalf_wim (a : Word) (v : BitVec 16) : (s.storeHalf a v).wim = s.wim := by simp only [State.storeHalf, storeByte_wim]
@[simp] theorem storeHalf_tbr (a : Word) (v : BitVec 16) : (s.storeHalf a v).tbr = s.tbr := by simp only [State.storeHalf, storeByte_tbr]
@[simp] theorem storeHalf_y (a : Word) (v : BitVec 16) : (s.storeHalf a v).y = s.y := by simp only [State.storeHalf, storeByte_y]
@[simp] theorem storeHalf_pending (a : Word) (v : BitVec 16) : (s.storeHalf a v).pending = s.pending := by simp only [State.storeHalf, storeByte_pending]
@[simp] theorem storeHalf_dctiPrev (a : Word) (v : BitVec 16) : (s.storeHalf a v).dctiPrev = s.dctiPrev := by simp only [State.storeHalf, storeByte_dctiPrev]
@[simp] theorem storeHalf_errorMode (a : Word) (v : BitVec 16) : (s.storeHalf a v).errorMode = s.errorMode := by simp only [State.storeHalf, storeByte_errorMode]
@[simp] theorem storeHalf_inputs (a : Word) (v : BitVec 16) : (s.storeHalf a v).inputs = s.inputs := by simp only [State.storeHalf, storeByte_inputs]
@[simp] theorem storeHalf_dmaPending (a : Word) (v : BitVec 16) : (s.storeHalf a v).dmaPending = s.dmaPending := by simp only [State.storeHalf, storeByte_dmaPending]
@[simp] theorem storeHalf_freeCount (a : Word) (v : BitVec 16) : (s.storeHalf a v).freeCount = s.freeCount := by simp only [State.storeHalf, storeByte_freeCount]
@[simp] theorem storeHalf_readRegAt (a : Word) (v : BitVec 16) (k : BitVec 5) (j : RegIdx) : (s.storeHalf a v).readRegAt k j = s.readRegAt k j := by simp only [State.storeHalf, storeByte_readRegAt]

/-! `storeWord`. -/

@[simp] theorem storeWord_cfg (a v : Word) : (s.storeWord a v).cfg = s.cfg := by simp only [State.storeWord, storeByte_cfg]
@[simp] theorem storeWord_regs (a v : Word) : (s.storeWord a v).regs = s.regs := by simp only [State.storeWord, storeByte_regs]
@[simp] theorem storeWord_pc (a v : Word) : (s.storeWord a v).pc = s.pc := by simp only [State.storeWord, storeByte_pc]
@[simp] theorem storeWord_npc (a v : Word) : (s.storeWord a v).npc = s.npc := by simp only [State.storeWord, storeByte_npc]
@[simp] theorem storeWord_psr (a v : Word) : (s.storeWord a v).psr = s.psr := by simp only [State.storeWord, storeByte_psr]
@[simp] theorem storeWord_wim (a v : Word) : (s.storeWord a v).wim = s.wim := by simp only [State.storeWord, storeByte_wim]
@[simp] theorem storeWord_tbr (a v : Word) : (s.storeWord a v).tbr = s.tbr := by simp only [State.storeWord, storeByte_tbr]
@[simp] theorem storeWord_y (a v : Word) : (s.storeWord a v).y = s.y := by simp only [State.storeWord, storeByte_y]
@[simp] theorem storeWord_pending (a v : Word) : (s.storeWord a v).pending = s.pending := by simp only [State.storeWord, storeByte_pending]
@[simp] theorem storeWord_dctiPrev (a v : Word) : (s.storeWord a v).dctiPrev = s.dctiPrev := by simp only [State.storeWord, storeByte_dctiPrev]
@[simp] theorem storeWord_errorMode (a v : Word) : (s.storeWord a v).errorMode = s.errorMode := by simp only [State.storeWord, storeByte_errorMode]
@[simp] theorem storeWord_inputs (a v : Word) : (s.storeWord a v).inputs = s.inputs := by simp only [State.storeWord, storeByte_inputs]
@[simp] theorem storeWord_dmaPending (a v : Word) : (s.storeWord a v).dmaPending = s.dmaPending := by simp only [State.storeWord, storeByte_dmaPending]
@[simp] theorem storeWord_freeCount (a v : Word) : (s.storeWord a v).freeCount = s.freeCount := by simp only [State.storeWord, storeByte_freeCount]
@[simp] theorem storeWord_readRegAt (a v : Word) (k : BitVec 5) (j : RegIdx) : (s.storeWord a v).readRegAt k j = s.readRegAt k j := by simp only [State.storeWord, storeByte_readRegAt]

/-! `applyDma`. -/

@[simp] theorem applyDma_cfg (l : List (Word × Byte)) : (s.applyDma l).cfg = s.cfg := rfl
@[simp] theorem applyDma_regs (l : List (Word × Byte)) : (s.applyDma l).regs = s.regs := rfl
@[simp] theorem applyDma_pc (l : List (Word × Byte)) : (s.applyDma l).pc = s.pc := rfl
@[simp] theorem applyDma_npc (l : List (Word × Byte)) : (s.applyDma l).npc = s.npc := rfl
@[simp] theorem applyDma_psr (l : List (Word × Byte)) : (s.applyDma l).psr = s.psr := rfl
@[simp] theorem applyDma_wim (l : List (Word × Byte)) : (s.applyDma l).wim = s.wim := rfl
@[simp] theorem applyDma_tbr (l : List (Word × Byte)) : (s.applyDma l).tbr = s.tbr := rfl
@[simp] theorem applyDma_y (l : List (Word × Byte)) : (s.applyDma l).y = s.y := rfl
@[simp] theorem applyDma_storedTo (l : List (Word × Byte)) : (s.applyDma l).storedTo = s.storedTo := rfl
@[simp] theorem applyDma_pending (l : List (Word × Byte)) : (s.applyDma l).pending = s.pending := rfl
@[simp] theorem applyDma_dctiPrev (l : List (Word × Byte)) : (s.applyDma l).dctiPrev = s.dctiPrev := rfl
@[simp] theorem applyDma_errorMode (l : List (Word × Byte)) : (s.applyDma l).errorMode = s.errorMode := rfl
@[simp] theorem applyDma_inputs (l : List (Word × Byte)) : (s.applyDma l).inputs = s.inputs := rfl
@[simp] theorem applyDma_dmaPending (l : List (Word × Byte)) : (s.applyDma l).dmaPending = s.dmaPending := rfl
@[simp] theorem applyDma_freeCount (l : List (Word × Byte)) : (s.applyDma l).freeCount = s.freeCount := rfl
@[simp] theorem applyDma_readRegAt (l : List (Word × Byte)) (k : BitVec 5) (j : RegIdx) : (s.applyDma l).readRegAt k j = s.readRegAt k j := rfl

/-! `landDma`. -/

@[simp] theorem landDma_cfg : s.landDma.cfg = s.cfg := rfl
@[simp] theorem landDma_regs : s.landDma.regs = s.regs := rfl
@[simp] theorem landDma_pc : s.landDma.pc = s.pc := rfl
@[simp] theorem landDma_npc : s.landDma.npc = s.npc := rfl
@[simp] theorem landDma_psr : s.landDma.psr = s.psr := rfl
@[simp] theorem landDma_wim : s.landDma.wim = s.wim := rfl
@[simp] theorem landDma_tbr : s.landDma.tbr = s.tbr := rfl
@[simp] theorem landDma_y : s.landDma.y = s.y := rfl
@[simp] theorem landDma_storedTo : s.landDma.storedTo = s.storedTo := rfl
@[simp] theorem landDma_pending : s.landDma.pending = s.pending := rfl
@[simp] theorem landDma_dctiPrev : s.landDma.dctiPrev = s.dctiPrev := rfl
@[simp] theorem landDma_errorMode : s.landDma.errorMode = s.errorMode := rfl
@[simp] theorem landDma_inputs : s.landDma.inputs = s.inputs := rfl
@[simp] theorem landDma_dmaPending : s.landDma.dmaPending = [] := rfl
@[simp] theorem landDma_freeCount : s.landDma.freeCount = s.freeCount := rfl
@[simp] theorem landDma_readRegAt (k : BitVec 5) (j : RegIdx) : s.landDma.readRegAt k j = s.readRegAt k j := rfl

/-! `storeDouble`. -/

@[simp] theorem storeDouble_cfg (ea v u : Word) : (s.storeDouble ea v u).cfg = s.cfg := by simp only [State.storeDouble, storeWord_cfg, landDma_cfg]
@[simp] theorem storeDouble_regs (ea v u : Word) : (s.storeDouble ea v u).regs = s.regs := by simp only [State.storeDouble, storeWord_regs, landDma_regs]
@[simp] theorem storeDouble_pc (ea v u : Word) : (s.storeDouble ea v u).pc = s.pc := by simp only [State.storeDouble, storeWord_pc, landDma_pc]
@[simp] theorem storeDouble_npc (ea v u : Word) : (s.storeDouble ea v u).npc = s.npc := by simp only [State.storeDouble, storeWord_npc, landDma_npc]
@[simp] theorem storeDouble_psr (ea v u : Word) : (s.storeDouble ea v u).psr = s.psr := by simp only [State.storeDouble, storeWord_psr, landDma_psr]
@[simp] theorem storeDouble_wim (ea v u : Word) : (s.storeDouble ea v u).wim = s.wim := by simp only [State.storeDouble, storeWord_wim, landDma_wim]
@[simp] theorem storeDouble_tbr (ea v u : Word) : (s.storeDouble ea v u).tbr = s.tbr := by simp only [State.storeDouble, storeWord_tbr, landDma_tbr]
@[simp] theorem storeDouble_y (ea v u : Word) : (s.storeDouble ea v u).y = s.y := by simp only [State.storeDouble, storeWord_y, landDma_y]
@[simp] theorem storeDouble_pending (ea v u : Word) : (s.storeDouble ea v u).pending = s.pending := by simp only [State.storeDouble, storeWord_pending, landDma_pending]
@[simp] theorem storeDouble_dctiPrev (ea v u : Word) : (s.storeDouble ea v u).dctiPrev = s.dctiPrev := by simp only [State.storeDouble, storeWord_dctiPrev, landDma_dctiPrev]
@[simp] theorem storeDouble_errorMode (ea v u : Word) : (s.storeDouble ea v u).errorMode = s.errorMode := by simp only [State.storeDouble, storeWord_errorMode, landDma_errorMode]
@[simp] theorem storeDouble_inputs (ea v u : Word) : (s.storeDouble ea v u).inputs = s.inputs := by simp only [State.storeDouble, storeWord_inputs, landDma_inputs]
@[simp] theorem storeDouble_dmaPending (ea v u : Word) : (s.storeDouble ea v u).dmaPending = [] := by simp only [State.storeDouble, storeWord_dmaPending, landDma_dmaPending]
@[simp] theorem storeDouble_freeCount (ea v u : Word) : (s.storeDouble ea v u).freeCount = s.freeCount := by simp only [State.storeDouble, storeWord_freeCount, landDma_freeCount]
@[simp] theorem storeDouble_readRegAt (ea v u : Word) (k : BitVec 5) (j : RegIdx) : (s.storeDouble ea v u).readRegAt k j = s.readRegAt k j := by simp only [State.storeDouble, storeWord_readRegAt, landDma_readRegAt]

/-! `openWimWindow`. -/

@[simp] theorem openWimWindow_cfg : s.openWimWindow.cfg = s.cfg := rfl
@[simp] theorem openWimWindow_regs : s.openWimWindow.regs = s.regs := rfl
@[simp] theorem openWimWindow_pc : s.openWimWindow.pc = s.pc := rfl
@[simp] theorem openWimWindow_npc : s.openWimWindow.npc = s.npc := rfl
@[simp] theorem openWimWindow_psr : s.openWimWindow.psr = s.psr := rfl
@[simp] theorem openWimWindow_wim : s.openWimWindow.wim = s.wim := rfl
@[simp] theorem openWimWindow_tbr : s.openWimWindow.tbr = s.tbr := rfl
@[simp] theorem openWimWindow_y : s.openWimWindow.y = s.y := rfl
@[simp] theorem openWimWindow_mem : s.openWimWindow.mem = s.mem := rfl
@[simp] theorem openWimWindow_storedTo : s.openWimWindow.storedTo = s.storedTo := rfl
@[simp] theorem openWimWindow_pending : s.openWimWindow.pending = { s.pending with wim := 3 } := rfl
@[simp] theorem openWimWindow_dctiPrev : s.openWimWindow.dctiPrev = s.dctiPrev := rfl
@[simp] theorem openWimWindow_errorMode : s.openWimWindow.errorMode = s.errorMode := rfl
@[simp] theorem openWimWindow_inputs : s.openWimWindow.inputs = s.inputs := rfl
@[simp] theorem openWimWindow_dmaPending : s.openWimWindow.dmaPending = s.dmaPending := rfl
@[simp] theorem openWimWindow_freeCount : s.openWimWindow.freeCount = s.freeCount := rfl
@[simp] theorem openWimWindow_readRegAt (k : BitVec 5) (j : RegIdx) : s.openWimWindow.readRegAt k j = s.readRegAt k j := rfl
@[simp] theorem openWimWindow_readByte (x : Word) : s.openWimWindow.readByte x = s.readByte x := rfl

/-! `openTbrWindow`. -/

@[simp] theorem openTbrWindow_cfg : s.openTbrWindow.cfg = s.cfg := rfl
@[simp] theorem openTbrWindow_regs : s.openTbrWindow.regs = s.regs := rfl
@[simp] theorem openTbrWindow_pc : s.openTbrWindow.pc = s.pc := rfl
@[simp] theorem openTbrWindow_npc : s.openTbrWindow.npc = s.npc := rfl
@[simp] theorem openTbrWindow_psr : s.openTbrWindow.psr = s.psr := rfl
@[simp] theorem openTbrWindow_wim : s.openTbrWindow.wim = s.wim := rfl
@[simp] theorem openTbrWindow_tbr : s.openTbrWindow.tbr = s.tbr := rfl
@[simp] theorem openTbrWindow_y : s.openTbrWindow.y = s.y := rfl
@[simp] theorem openTbrWindow_mem : s.openTbrWindow.mem = s.mem := rfl
@[simp] theorem openTbrWindow_storedTo : s.openTbrWindow.storedTo = s.storedTo := rfl
@[simp] theorem openTbrWindow_pending : s.openTbrWindow.pending = { s.pending with tbr := 3 } := rfl
@[simp] theorem openTbrWindow_dctiPrev : s.openTbrWindow.dctiPrev = s.dctiPrev := rfl
@[simp] theorem openTbrWindow_errorMode : s.openTbrWindow.errorMode = s.errorMode := rfl
@[simp] theorem openTbrWindow_inputs : s.openTbrWindow.inputs = s.inputs := rfl
@[simp] theorem openTbrWindow_dmaPending : s.openTbrWindow.dmaPending = s.dmaPending := rfl
@[simp] theorem openTbrWindow_freeCount : s.openTbrWindow.freeCount = s.freeCount := rfl
@[simp] theorem openTbrWindow_readRegAt (k : BitVec 5) (j : RegIdx) : s.openTbrWindow.readRegAt k j = s.readRegAt k j := rfl
@[simp] theorem openTbrWindow_readByte (x : Word) : s.openTbrWindow.readByte x = s.readByte x := rfl

/-! `openYWindow`. -/

@[simp] theorem openYWindow_cfg : s.openYWindow.cfg = s.cfg := rfl
@[simp] theorem openYWindow_regs : s.openYWindow.regs = s.regs := rfl
@[simp] theorem openYWindow_pc : s.openYWindow.pc = s.pc := rfl
@[simp] theorem openYWindow_npc : s.openYWindow.npc = s.npc := rfl
@[simp] theorem openYWindow_psr : s.openYWindow.psr = s.psr := rfl
@[simp] theorem openYWindow_wim : s.openYWindow.wim = s.wim := rfl
@[simp] theorem openYWindow_tbr : s.openYWindow.tbr = s.tbr := rfl
@[simp] theorem openYWindow_y : s.openYWindow.y = s.y := rfl
@[simp] theorem openYWindow_mem : s.openYWindow.mem = s.mem := rfl
@[simp] theorem openYWindow_storedTo : s.openYWindow.storedTo = s.storedTo := rfl
@[simp] theorem openYWindow_pending : s.openYWindow.pending = { s.pending with y := 3 } := rfl
@[simp] theorem openYWindow_dctiPrev : s.openYWindow.dctiPrev = s.dctiPrev := rfl
@[simp] theorem openYWindow_errorMode : s.openYWindow.errorMode = s.errorMode := rfl
@[simp] theorem openYWindow_inputs : s.openYWindow.inputs = s.inputs := rfl
@[simp] theorem openYWindow_dmaPending : s.openYWindow.dmaPending = s.dmaPending := rfl
@[simp] theorem openYWindow_freeCount : s.openYWindow.freeCount = s.freeCount := rfl
@[simp] theorem openYWindow_readRegAt (k : BitVec 5) (j : RegIdx) : s.openYWindow.readRegAt k j = s.readRegAt k j := rfl
@[simp] theorem openYWindow_readByte (x : Word) : s.openYWindow.readByte x = s.readByte x := rfl

/-! `openPsrWindow`. -/

@[simp] theorem openPsrWindow_cfg (old : Psr) : (s.openPsrWindow old).cfg = s.cfg := rfl
@[simp] theorem openPsrWindow_regs (old : Psr) : (s.openPsrWindow old).regs = s.regs := rfl
@[simp] theorem openPsrWindow_pc (old : Psr) : (s.openPsrWindow old).pc = s.pc := rfl
@[simp] theorem openPsrWindow_npc (old : Psr) : (s.openPsrWindow old).npc = s.npc := rfl
@[simp] theorem openPsrWindow_psr (old : Psr) : (s.openPsrWindow old).psr = s.psr := rfl
@[simp] theorem openPsrWindow_wim (old : Psr) : (s.openPsrWindow old).wim = s.wim := rfl
@[simp] theorem openPsrWindow_tbr (old : Psr) : (s.openPsrWindow old).tbr = s.tbr := rfl
@[simp] theorem openPsrWindow_y (old : Psr) : (s.openPsrWindow old).y = s.y := rfl
@[simp] theorem openPsrWindow_mem (old : Psr) : (s.openPsrWindow old).mem = s.mem := rfl
@[simp] theorem openPsrWindow_storedTo (old : Psr) : (s.openPsrWindow old).storedTo = s.storedTo := rfl
@[simp] theorem openPsrWindow_pending (old : Psr) : (s.openPsrWindow old).pending = { s.pending with psr := 3, changed := Psr.changedFrom old s.psr, oldPil := old.pil } := rfl
@[simp] theorem openPsrWindow_dctiPrev (old : Psr) : (s.openPsrWindow old).dctiPrev = s.dctiPrev := rfl
@[simp] theorem openPsrWindow_errorMode (old : Psr) : (s.openPsrWindow old).errorMode = s.errorMode := rfl
@[simp] theorem openPsrWindow_inputs (old : Psr) : (s.openPsrWindow old).inputs = s.inputs := rfl
@[simp] theorem openPsrWindow_dmaPending (old : Psr) : (s.openPsrWindow old).dmaPending = s.dmaPending := rfl
@[simp] theorem openPsrWindow_freeCount (old : Psr) : (s.openPsrWindow old).freeCount = s.freeCount := rfl
@[simp] theorem openPsrWindow_readRegAt (old : Psr) (k : BitVec 5) (j : RegIdx) : (s.openPsrWindow old).readRegAt k j = s.readRegAt k j := rfl
@[simp] theorem openPsrWindow_readByte (old : Psr) (x : Word) : (s.openPsrWindow old).readByte x = s.readByte x := rfl

/-! `trapEntry`. -/

@[simp] theorem trapEntry_cfg (t : BitVec 8) : (s.trapEntry t).cfg = s.cfg := rfl
@[simp] theorem trapEntry_pc (t : BitVec 8) : (s.trapEntry t).pc = s.tbr.tba ++ t ++ 0#4 := rfl
@[simp] theorem trapEntry_npc (t : BitVec 8) : (s.trapEntry t).npc = s.tbr.tba ++ t ++ 0#4 + 4 := rfl
@[simp] theorem trapEntry_psr (t : BitVec 8) : (s.trapEntry t).psr = ⟨s.psr.icc, s.psr.pil, true, s.psr.s, false, prevWindow s.cfg.nwindows s.psr.cwp⟩ := rfl
@[simp] theorem trapEntry_wim (t : BitVec 8) : (s.trapEntry t).wim = s.wim := rfl
@[simp] theorem trapEntry_tbr (t : BitVec 8) : (s.trapEntry t).tbr = ⟨s.tbr.tba, t⟩ := rfl
@[simp] theorem trapEntry_y (t : BitVec 8) : (s.trapEntry t).y = s.y := rfl
@[simp] theorem trapEntry_mem (t : BitVec 8) : (s.trapEntry t).mem = s.mem := rfl
@[simp] theorem trapEntry_storedTo (t : BitVec 8) : (s.trapEntry t).storedTo = s.storedTo := rfl
@[simp] theorem trapEntry_pending (t : BitVec 8) : (s.trapEntry t).pending = s.pending := rfl
@[simp] theorem trapEntry_dctiPrev (t : BitVec 8) : (s.trapEntry t).dctiPrev = .none := rfl
@[simp] theorem trapEntry_errorMode (t : BitVec 8) : (s.trapEntry t).errorMode = s.errorMode := rfl
@[simp] theorem trapEntry_inputs (t : BitVec 8) : (s.trapEntry t).inputs = s.inputs := rfl
@[simp] theorem trapEntry_dmaPending (t : BitVec 8) : (s.trapEntry t).dmaPending = s.dmaPending := rfl
@[simp] theorem trapEntry_freeCount (t : BitVec 8) : (s.trapEntry t).freeCount = s.freeCount := rfl
@[simp] theorem trapEntry_readByte (t : BitVec 8) (x : Word) : (s.trapEntry t).readByte x = s.readByte x := rfl

/-! `enterErrorMode`. -/

@[simp] theorem enterErrorMode_cfg : s.enterErrorMode.cfg = s.cfg := rfl
@[simp] theorem enterErrorMode_regs : s.enterErrorMode.regs = s.regs := rfl
@[simp] theorem enterErrorMode_pc : s.enterErrorMode.pc = s.pc := rfl
@[simp] theorem enterErrorMode_npc : s.enterErrorMode.npc = s.npc := rfl
@[simp] theorem enterErrorMode_psr : s.enterErrorMode.psr = s.psr := rfl
@[simp] theorem enterErrorMode_wim : s.enterErrorMode.wim = s.wim := rfl
@[simp] theorem enterErrorMode_tbr : s.enterErrorMode.tbr = ⟨s.tbr.tba, (Config.freeWord s.freeCount).extractLsb' 0 8⟩ := rfl
@[simp] theorem enterErrorMode_y : s.enterErrorMode.y = s.y := rfl
@[simp] theorem enterErrorMode_mem : s.enterErrorMode.mem = s.mem := rfl
@[simp] theorem enterErrorMode_storedTo : s.enterErrorMode.storedTo = s.storedTo := rfl
@[simp] theorem enterErrorMode_pending : s.enterErrorMode.pending = s.pending := rfl
@[simp] theorem enterErrorMode_dctiPrev : s.enterErrorMode.dctiPrev = s.dctiPrev := rfl
@[simp] theorem enterErrorMode_errorMode : s.enterErrorMode.errorMode = true := rfl
@[simp] theorem enterErrorMode_inputs : s.enterErrorMode.inputs = s.inputs := rfl
@[simp] theorem enterErrorMode_dmaPending : s.enterErrorMode.dmaPending = s.dmaPending := rfl
@[simp] theorem enterErrorMode_freeCount : s.enterErrorMode.freeCount = s.freeCount + 1 := rfl
@[simp] theorem enterErrorMode_readRegAt (k : BitVec 5) (j : RegIdx) : s.enterErrorMode.readRegAt k j = s.readRegAt k j := rfl
@[simp] theorem enterErrorMode_readByte (x : Word) : s.enterErrorMode.readByte x = s.readByte x := rfl

/-! `returnFromTrap`. -/

@[simp] theorem returnFromTrap_cfg (target : Word) : (s.returnFromTrap target).cfg = s.cfg := rfl
@[simp] theorem returnFromTrap_regs (target : Word) : (s.returnFromTrap target).regs = s.regs := rfl
@[simp] theorem returnFromTrap_pc (target : Word) : (s.returnFromTrap target).pc = s.npc := rfl
@[simp] theorem returnFromTrap_npc (target : Word) : (s.returnFromTrap target).npc = target := rfl
@[simp] theorem returnFromTrap_psr (target : Word) : (s.returnFromTrap target).psr = { s.psr with cwp := nextWindow s.cfg.nwindows s.psr.cwp, s := s.psr.ps, et := true } := rfl
@[simp] theorem returnFromTrap_wim (target : Word) : (s.returnFromTrap target).wim = s.wim := rfl
@[simp] theorem returnFromTrap_tbr (target : Word) : (s.returnFromTrap target).tbr = s.tbr := rfl
@[simp] theorem returnFromTrap_y (target : Word) : (s.returnFromTrap target).y = s.y := rfl
@[simp] theorem returnFromTrap_mem (target : Word) : (s.returnFromTrap target).mem = s.mem := rfl
@[simp] theorem returnFromTrap_storedTo (target : Word) : (s.returnFromTrap target).storedTo = s.storedTo := rfl
@[simp] theorem returnFromTrap_pending (target : Word) : (s.returnFromTrap target).pending = s.pending.tick := rfl
@[simp] theorem returnFromTrap_dctiPrev (target : Word) : (s.returnFromTrap target).dctiPrev = .uncond := rfl
@[simp] theorem returnFromTrap_errorMode (target : Word) : (s.returnFromTrap target).errorMode = s.errorMode := rfl
@[simp] theorem returnFromTrap_inputs (target : Word) : (s.returnFromTrap target).inputs = s.inputs := rfl
@[simp] theorem returnFromTrap_dmaPending (target : Word) : (s.returnFromTrap target).dmaPending = s.dmaPending := rfl
@[simp] theorem returnFromTrap_freeCount (target : Word) : (s.returnFromTrap target).freeCount = s.freeCount := rfl
@[simp] theorem returnFromTrap_readRegAt (target : Word) (k : BitVec 5) (j : RegIdx) : (s.returnFromTrap target).readRegAt k j = s.readRegAt k j := rfl
@[simp] theorem returnFromTrap_readByte (target : Word) (x : Word) : (s.returnFromTrap target).readByte x = s.readByte x := rfl

/-! `popInput`. -/

@[simp] theorem popInput_cfg : s.popInput.cfg = s.cfg := rfl
@[simp] theorem popInput_regs : s.popInput.regs = s.regs := rfl
@[simp] theorem popInput_pc : s.popInput.pc = s.pc := rfl
@[simp] theorem popInput_npc : s.popInput.npc = s.npc := rfl
@[simp] theorem popInput_psr : s.popInput.psr = s.psr := rfl
@[simp] theorem popInput_wim : s.popInput.wim = s.wim := rfl
@[simp] theorem popInput_tbr : s.popInput.tbr = s.tbr := rfl
@[simp] theorem popInput_y : s.popInput.y = s.y := rfl
@[simp] theorem popInput_mem : s.popInput.mem = s.mem := rfl
@[simp] theorem popInput_storedTo : s.popInput.storedTo = s.storedTo := rfl
@[simp] theorem popInput_pending : s.popInput.pending = s.pending := rfl
@[simp] theorem popInput_dctiPrev : s.popInput.dctiPrev = s.dctiPrev := rfl
@[simp] theorem popInput_errorMode : s.popInput.errorMode = s.errorMode := rfl
@[simp] theorem popInput_inputs : s.popInput.inputs = s.inputs.tail := rfl
@[simp] theorem popInput_dmaPending : s.popInput.dmaPending = s.dmaPending := rfl
@[simp] theorem popInput_freeCount : s.popInput.freeCount = s.freeCount := rfl
@[simp] theorem popInput_readRegAt (k : BitVec 5) (j : RegIdx) : s.popInput.readRegAt k j = s.readRegAt k j := rfl
@[simp] theorem popInput_readByte (x : Word) : s.popInput.readByte x = s.readByte x := rfl

/-! `takeInput`. -/

@[simp] theorem takeInput_cfg : s.takeInput.cfg = s.cfg := rfl
@[simp] theorem takeInput_regs : s.takeInput.regs = s.regs := rfl
@[simp] theorem takeInput_pc : s.takeInput.pc = s.pc := rfl
@[simp] theorem takeInput_npc : s.takeInput.npc = s.npc := rfl
@[simp] theorem takeInput_psr : s.takeInput.psr = s.psr := rfl
@[simp] theorem takeInput_wim : s.takeInput.wim = s.wim := rfl
@[simp] theorem takeInput_tbr : s.takeInput.tbr = s.tbr := rfl
@[simp] theorem takeInput_y : s.takeInput.y = s.y := rfl
@[simp] theorem takeInput_storedTo : s.takeInput.storedTo = s.storedTo := rfl
@[simp] theorem takeInput_pending : s.takeInput.pending = s.pending := rfl
@[simp] theorem takeInput_dctiPrev : s.takeInput.dctiPrev = s.dctiPrev := rfl
@[simp] theorem takeInput_errorMode : s.takeInput.errorMode = s.errorMode := rfl
@[simp] theorem takeInput_inputs : s.takeInput.inputs = s.inputs.tail := rfl
@[simp] theorem takeInput_dmaPending : s.takeInput.dmaPending = s.input.dmaBetween := rfl
@[simp] theorem takeInput_freeCount : s.takeInput.freeCount = s.freeCount := rfl
@[simp] theorem takeInput_readRegAt (k : BitVec 5) (j : RegIdx) : s.takeInput.readRegAt k j = s.readRegAt k j := rfl

/-! `loadWordAtPc`. -/

@[simp] theorem loadWordAtPc_cfg (w : Word) : (s.loadWordAtPc w).cfg = s.cfg := by simp only [State.loadWordAtPc]
@[simp] theorem loadWordAtPc_regs (w : Word) : (s.loadWordAtPc w).regs = s.regs := by simp only [State.loadWordAtPc]
@[simp] theorem loadWordAtPc_pc (w : Word) : (s.loadWordAtPc w).pc = s.pc := by simp only [State.loadWordAtPc]
@[simp] theorem loadWordAtPc_npc (w : Word) : (s.loadWordAtPc w).npc = s.npc := by simp only [State.loadWordAtPc]
@[simp] theorem loadWordAtPc_psr (w : Word) : (s.loadWordAtPc w).psr = s.psr := by simp only [State.loadWordAtPc]
@[simp] theorem loadWordAtPc_wim (w : Word) : (s.loadWordAtPc w).wim = s.wim := by simp only [State.loadWordAtPc]
@[simp] theorem loadWordAtPc_tbr (w : Word) : (s.loadWordAtPc w).tbr = s.tbr := by simp only [State.loadWordAtPc]
@[simp] theorem loadWordAtPc_y (w : Word) : (s.loadWordAtPc w).y = s.y := by simp only [State.loadWordAtPc]
@[simp] theorem loadWordAtPc_pending (w : Word) : (s.loadWordAtPc w).pending = s.pending := by simp only [State.loadWordAtPc]
@[simp] theorem loadWordAtPc_dctiPrev (w : Word) : (s.loadWordAtPc w).dctiPrev = s.dctiPrev := by simp only [State.loadWordAtPc]
@[simp] theorem loadWordAtPc_errorMode (w : Word) : (s.loadWordAtPc w).errorMode = s.errorMode := by simp only [State.loadWordAtPc]
@[simp] theorem loadWordAtPc_inputs (w : Word) : (s.loadWordAtPc w).inputs = s.inputs := by simp only [State.loadWordAtPc]
@[simp] theorem loadWordAtPc_dmaPending (w : Word) : (s.loadWordAtPc w).dmaPending = s.dmaPending := by simp only [State.loadWordAtPc]
@[simp] theorem loadWordAtPc_freeCount (w : Word) : (s.loadWordAtPc w).freeCount = s.freeCount := by simp only [State.loadWordAtPc]

end Sys2Proof.Machine
end

