-- ==== Sys2Proof/Laws/Memory.lean ====
section
/-! SUPPORT. Memory and the record of stores (20_memory.md rules R60, R63 and R76): reads after writes, the canonical
form, and what each store does to the bytes. -/

namespace Sys2Proof.Machine

/-! ## Reads after writes -/

theorem Memory.read_erase (m : Memory) (a c : Nat) :
    (Memory.erase m a).read c = if a = c then Memory.unlisted else m.read c := by
  induction m with
  | nil => simp [Memory.erase, Memory.read]
  | cons x m ih =>
    obtain ⟨k, v⟩ := x
    simp only [Memory.erase]
    by_cases hk : k = a
    · subst hk
      rw [if_pos rfl, ih, Memory.read]
      by_cases hc : k = c <;> simp [hc]
    · rw [if_neg hk, Memory.read, Memory.read, ih]
      by_cases hc : k = c
      · subst hc; simp [Ne.symm hk]
      · simp [hc]

/-- No entry for an address. -/
theorem Memory.erase_free (m : Memory) (a : Nat) : ∀ c ∈ Memory.erase m a, c.1 ≠ a := by
  induction m with
  | nil => simp [Memory.erase]
  | cons x m ih =>
    obtain ⟨k, v⟩ := x
    simp only [Memory.erase]
    by_cases hk : k = a
    · rw [if_pos hk]; exact ih
    · rw [if_neg hk]
      intro c hc
      rcases List.mem_cons.1 hc with rfl | hc
      · exact hk
      · exact ih c hc

theorem Memory.read_insert (m : Memory) (a c : Nat) (b : Byte) (h : ∀ x ∈ m, x.1 ≠ a) :
    (Memory.insert m a b).read c = if a = c then b else m.read c := by
  induction m with
  | nil => simp [Memory.insert, Memory.read]
  | cons x m ih =>
    obtain ⟨k, v⟩ := x
    have hk : k ≠ a := h (k, v) (by simp)
    simp only [Memory.insert]
    by_cases hl : a < k
    · rw [if_pos hl, Memory.read]
    · rw [if_neg hl, Memory.read, ih (fun x hx => h x (by simp [hx])), Memory.read]
      by_cases hc : k = c
      · subst hc; simp [Ne.symm hk]
      · simp [hc]

/-- A read after a write: the byte written at its address, every other byte as before. -/
theorem Memory.read_write (m : Memory) (a c : Nat) (b : Byte) :
    (Memory.write m a b).read c = if a = c then b else m.read c := by
  rw [Memory.write]
  by_cases hb : b = Memory.unlisted
  · rw [if_pos hb, Memory.read_erase, hb]
  · rw [if_neg hb, Memory.read_insert _ _ _ _ (Memory.erase_free m a), Memory.read_erase]
    by_cases hc : a = c <;> simp [hc]

/-! ## The canonical form -/

theorem Memory.wfAbove_mono {l l' : Option Nat} {m : Memory} (h : Memory.wfAbove l m = true)
    (hl : ∀ k, (l.all fun b => decide (b < k)) = true → (l'.all fun b => decide (b < k)) = true) :
    Memory.wfAbove l' m = true := by
  cases m with
  | nil => rfl
  | cons x m =>
    obtain ⟨k, v⟩ := x
    simp only [Memory.wfAbove, Bool.and_eq_true] at h ⊢
    exact ⟨⟨hl k h.1.1, h.1.2⟩, h.2⟩

theorem Memory.wfAbove_erase (m : Memory) (a : Nat) :
    ∀ l, Memory.wfAbove l m = true → Memory.wfAbove l (Memory.erase m a) = true := by
  induction m with
  | nil => intro l _; rfl
  | cons x m ih =>
    obtain ⟨k, v⟩ := x
    intro l h
    simp only [Memory.wfAbove, Bool.and_eq_true] at h
    simp only [Memory.erase]
    by_cases hk : k = a
    · rw [if_pos hk]
      refine ih l (Memory.wfAbove_mono h.2 fun j hj => ?_)
      cases l with
      | none => rfl
      | some b =>
        simp only [Option.all_some, decide_eq_true_eq] at hj ⊢
        have := h.1.1
        simp only [Option.all_some, decide_eq_true_eq] at this
        omega
    · rw [if_neg hk, Memory.wfAbove, ih (some k) h.2, Bool.and_true, Bool.and_eq_true]
      exact h.1

theorem Memory.wfAbove_insert (m : Memory) (a : Nat) (b : Byte) (hb : b ≠ Memory.unlisted)
    (hm : ∀ x ∈ m, x.1 ≠ a) :
    ∀ l, (l.all fun x => decide (x < a)) = true → Memory.wfAbove l m = true →
      Memory.wfAbove l (Memory.insert m a b) = true := by
  induction m with
  | nil =>
    intro l ha _
    simp [Memory.insert, Memory.wfAbove, ha, hb]
  | cons x m ih =>
    obtain ⟨k, v⟩ := x
    intro l ha h
    have hk : k ≠ a := hm (k, v) (by simp)
    simp only [Memory.wfAbove, Bool.and_eq_true] at h
    simp only [Memory.insert]
    by_cases hl : a < k
    · rw [if_pos hl]
      simp [Memory.wfAbove, ha, hb, hl, h.1.2, h.2]
    · rw [if_neg hl, Memory.wfAbove, ih (fun x hx => hm x (by simp [hx])) (some k)
        (by simp; omega) h.2, Bool.and_true, Bool.and_eq_true]
      exact h.1

/-- Every write keeps the canonical form. -/
theorem Memory.wf_write (m : Memory) (a : Nat) (b : Byte) (h : Memory.wf m = true) :
    Memory.wf (Memory.write m a b) = true := by
  simp only [Memory.wf] at h ⊢
  rw [Memory.write]
  by_cases hb : b = Memory.unlisted
  · rw [if_pos hb]; exact Memory.wfAbove_erase m a none h
  · rw [if_neg hb]
    exact Memory.wfAbove_insert _ a b hb (Memory.erase_free m a) none rfl (Memory.wfAbove_erase m a none h)

/-- A canonical memory above a bound reads as unlisted at and below the bound. -/
theorem Memory.read_of_wfAbove {l : Nat} {m : Memory} (h : Memory.wfAbove (some l) m = true) {a : Nat}
    (ha : a ≤ l) : m.read a = Memory.unlisted := by
  induction m generalizing l with
  | nil => rfl
  | cons x m ih =>
    obtain ⟨k, v⟩ := x
    simp only [Memory.wfAbove, Bool.and_eq_true, Option.all_some, decide_eq_true_eq] at h
    rw [Memory.read, if_neg (by omega), ih h.2 (by omega)]

/-- Canonical memories that read alike are equal data. -/
theorem Memory.eq_of_read {m m' : Memory} (h : m.wf = true) (h' : m'.wf = true)
    (e : ∀ a, m.read a = m'.read a) : m = m' := by
  suffices ∀ (l : Option Nat) (m m' : Memory), Memory.wfAbove l m = true → Memory.wfAbove l m' = true →
      (∀ a, (l.all fun b => decide (b < a)) = true → m.read a = m'.read a) → m = m' from
    this none m m' h h' fun a _ => e a
  clear h h' e m m'
  intro l m
  induction m generalizing l with
  | nil =>
    intro m' _ h' e
    cases m' with
    | nil => rfl
    | cons y m' =>
      obtain ⟨k, v⟩ := y
      simp only [Memory.wfAbove, Bool.and_eq_true, bne_iff_ne] at h'
      have := e k h'.1.1
      rw [Memory.read, Memory.read, if_pos rfl] at this
      exact absurd this.symm h'.1.2
  | cons x m ih =>
    intro m' h h' e
    obtain ⟨k, v⟩ := x
    simp only [Memory.wfAbove, Bool.and_eq_true, bne_iff_ne] at h
    have hk := e k h.1.1
    rw [Memory.read, if_pos rfl] at hk
    cases m' with
    | nil => exact absurd hk h.1.2
    | cons y m' =>
      obtain ⟨j, u⟩ := y
      simp only [Memory.wfAbove, Bool.and_eq_true, bne_iff_ne] at h'
      have hj := e j h'.1.1
      rw [Memory.read, Memory.read, if_pos rfl] at hj
      rw [Memory.read] at hk
      have hjk : j = k := by
        rcases Nat.lt_trichotomy j k with hlt | heq | hgt
        · rw [if_neg (by omega), Memory.read_of_wfAbove h.2 (by omega)] at hj
          exact absurd hj.symm h'.1.2
        · exact heq
        · rw [if_neg (by omega), Memory.read_of_wfAbove h'.2 (by omega)] at hk
          exact absurd hk h.1.2
      subst hjk
      rw [if_pos rfl] at hk
      subst hk
      rw [ih (some j) m' h.2 h'.2 fun a ha => ?_]
      simp only [Option.all_some, decide_eq_true_eq] at ha
      have := e a (by
        cases l with
        | none => rfl
        | some b =>
          have := h.1.1
          simp only [Option.all_some, decide_eq_true_eq] at this ⊢
          omega)
      rwa [Memory.read, Memory.read, if_neg (by omega), if_neg (by omega)] at this

/-! ## Within the 2^32 bytes -/

theorem Memory.mem_erase {m : Memory} {a : Nat} {c : Host.Cell} (h : c ∈ Memory.erase m a) : c ∈ m := by
  induction m with
  | nil => exact h
  | cons x m ih =>
    obtain ⟨k, v⟩ := x
    simp only [Memory.erase] at h
    by_cases hk : k = a
    · rw [if_pos hk] at h; exact List.mem_cons_of_mem _ (ih h)
    · rw [if_neg hk] at h
      rcases List.mem_cons.1 h with rfl | h
      · simp
      · exact List.mem_cons_of_mem _ (ih h)

theorem Memory.mem_insert {m : Memory} {a : Nat} {b : Byte} {c : Host.Cell} (h : c ∈ Memory.insert m a b) :
    c = (a, b) ∨ c ∈ m := by
  induction m with
  | nil => left; simpa [Memory.insert] using h
  | cons x m ih =>
    obtain ⟨k, v⟩ := x
    simp only [Memory.insert] at h
    by_cases hl : a < k
    · rw [if_pos hl] at h; simpa using h
    · rw [if_neg hl] at h
      rcases List.mem_cons.1 h with rfl | h
      · simp
      · rcases ih h with h | h <;> simp [h]

/-- A write at an address of the space keeps every entry within the space. -/
theorem Memory.inSpace_write {m : Memory} (a : Word) (b : Byte) (h : ∀ c ∈ m, c.1 < 2 ^ 32) :
    ∀ c ∈ Memory.write m a.toNat b, c.1 < 2 ^ 32 := by
  intro c hc
  rw [Memory.write] at hc
  by_cases hb : b = Memory.unlisted
  · rw [if_pos hb] at hc; exact h c (Memory.mem_erase hc)
  · rw [if_neg hb] at hc
    rcases Memory.mem_insert hc with rfl | hc
    · exact a.isLt
    · exact h c (Memory.mem_erase hc)

/-- A list of writes keeps the canonical form and the space. -/
theorem Memory.foldl_write_inv (l : List (Word × Byte)) :
    ∀ m : Memory, m.wf = true → (∀ c ∈ m, c.1 < 2 ^ 32) →
      (l.foldl (fun m c => Memory.write m c.1.toNat c.2) m).wf = true ∧
        ∀ c ∈ l.foldl (fun m c => Memory.write m c.1.toNat c.2) m, c.1 < 2 ^ 32 := by
  induction l with
  | nil => intro m h h'; exact ⟨h, h'⟩
  | cons x l ih =>
    intro m h h'
    exact ih _ (Memory.wf_write _ _ _ h) (Memory.inSpace_write _ _ h')

/-- What the platform loads is canonical and within the space. -/
theorem Memory.ofBytes_inv (l : List (Word × Byte)) :
    (Memory.ofBytes l).wf = true ∧ ∀ c ∈ Memory.ofBytes l, c.1 < 2 ^ 32 :=
  Memory.foldl_write_inv l [] rfl (by simp)

/-- The memory of the state after reset. -/
theorem reset_mem_wf : State.reset.mem.wf = true := rfl

/-! ## The record of stores -/

@[simp] theorem mem_addAddress {l : List Nat} {a b : Nat} : b ∈ addAddress l a ↔ b ∈ l ∨ b = a := by
  induction l with
  | nil => simp [addAddress]
  | cons k l ih =>
    simp only [addAddress]
    by_cases h1 : a < k
    · rw [if_pos h1]
      simp only [List.mem_cons]
      tauto
    · by_cases h2 : a = k
      · subst h2
        rw [if_neg h1, if_pos rfl]
        simp only [List.mem_cons]
        tauto
      · rw [if_neg h1, if_neg h2, List.mem_cons, List.mem_cons, ih]
        tauto

theorem risingAbove_addAddress (l : List Nat) (a : Nat) :
    ∀ lo : Option Nat, (lo.all fun b => decide (b < a)) = true → risingAbove lo l = true →
      risingAbove lo (addAddress l a) = true := by
  induction l with
  | nil => intro lo h _; simp [addAddress, risingAbove, h]
  | cons k l ih =>
    intro lo h hr
    simp only [risingAbove, Bool.and_eq_true] at hr
    simp only [addAddress]
    by_cases h1 : a < k
    · rw [if_pos h1]; simp [risingAbove, h, h1, hr.2]
    · by_cases h2 : a = k
      · subst h2; rw [if_neg h1, if_pos rfl]; simp [risingAbove, hr.1, hr.2]
      · rw [if_neg h1, if_neg h2, risingAbove, ih (some k) (by simp; omega) hr.2, Bool.and_true]
        exact hr.1

/-- A store keeps the record strictly rising. -/
theorem storedTo_rising (l : List Nat) (a : Nat) (h : risingAbove none l = true) :
    risingAbove none (addAddress l a) = true := risingAbove_addAddress l a none rfl h

/-! ## What each store does -/

theorem readByte_storeByte (s : State) (a x : Word) (b : Byte) :
    (s.storeByte a b).readByte x = if a = x then b else s.readByte x := by
  simp only [State.readByte, storeByte_mem, Memory.read_write]
  by_cases h : a = x
  · subst h; simp
  · rw [if_neg h, if_neg fun e => h (BitVec.eq_of_toNat_eq e)]

theorem mem_storeByte_storedTo (s : State) (a x : Word) (b : Byte) :
    x.toNat ∈ (s.storeByte a b).storedTo ↔ x.toNat ∈ s.storedTo ∨ x = a := by
  simp only [storeByte_storedTo, mem_addAddress]
  exact ⟨fun h => h.imp_right BitVec.eq_of_toNat_eq, fun h => h.imp_right fun e => by rw [e]⟩

/-- A halfword stored: its bytes, most significant first, and no other. -/
theorem readByte_storeHalf (s : State) (a x : Word) (v : BitVec 16) :
    (s.storeHalf a v).readByte x =
      if a + 1 = x then v.extractLsb' 0 8 else if a = x then v.extractLsb' 8 8 else s.readByte x := by
  simp only [State.storeHalf, readByte_storeByte]

/-- A word stored: its bytes, most significant first, and no other. -/
theorem readByte_storeWord (s : State) (a x v : Word) :
    (s.storeWord a v).readByte x =
      if a + 3 = x then v.extractLsb' 0 8 else if a + 2 = x then v.extractLsb' 8 8
      else if a + 1 = x then v.extractLsb' 16 8 else if a = x then v.extractLsb' 24 8 else s.readByte x := by
  simp only [State.storeWord, readByte_storeByte]

theorem mem_storeHalf_storedTo (s : State) (a x : Word) (v : BitVec 16) :
    x.toNat ∈ (s.storeHalf a v).storedTo ↔ x.toNat ∈ s.storedTo ∨ x = a ∨ x = a + 1 := by
  simp only [State.storeHalf, mem_storeByte_storedTo, or_assoc]

theorem mem_storeWord_storedTo (s : State) (a x v : Word) :
    x.toNat ∈ (s.storeWord a v).storedTo ↔
      x.toNat ∈ s.storedTo ∨ x = a ∨ x = a + 1 ∨ x = a + 2 ∨ x = a + 3 := by
  simp only [State.storeWord, mem_storeByte_storedTo, or_assoc]

/-- A list of writes: each address reads the last byte written to it, every other one reads as before. -/
theorem Memory.read_foldl_write (l : List (Word × Byte)) (m : Memory) (a : Word) :
    (l.foldl (fun m c => Memory.write m c.1.toNat c.2) m).read a.toNat = lastWrite l a (m.read a.toNat) := by
  induction l generalizing m with
  | nil => rfl
  | cons x l ih =>
    rw [List.foldl_cons, ih, Memory.read_write, lastWrite, lastWrite, List.reverse_cons, List.find?_append]
    cases l.reverse.find? fun c => c.1 == a with
    | some c => rfl
    | none =>
      by_cases h : x.1 = a
      · simp [h]
      · have hn : a.toNat ≠ x.1.toNat := fun e => h (BitVec.eq_of_toNat_eq e.symm)
        simp [h, Ne.symm hn]

theorem readByte_applyDma (s : State) (l : List (Word × Byte)) (a : Word) :
    (s.applyDma l).readByte a = lastWrite l a (s.readByte a) := Memory.read_foldl_write l s.mem a

/-- The DMA writes under way, landed. -/
theorem readByte_landDma (s : State) (a : Word) :
    s.landDma.readByte a = lastWrite s.dmaPending a (s.readByte a) := readByte_applyDma s _ a

/-- Writing what is read changes no byte: big-endian order is one order (20_memory.md rule R63). -/
theorem wordOfBytes_extract (v : Word) :
    wordOfBytes (v.extractLsb' 24 8) (v.extractLsb' 16 8) (v.extractLsb' 8 8) (v.extractLsb' 0 8) = v := by
  apply BitVec.eq_of_getLsbD_eq
  intro i hi
  simp only [wordOfBytes, BitVec.getLsbD_append, BitVec.getLsbD_extractLsb']
  by_cases h1 : i < 8
  · simp [h1]
  · by_cases h2 : i < 16
    · simp [h1, show i - 8 < 8 by omega]; congr 1; omega
    · by_cases h3 : i < 24
      · simp [h1, show ¬ i - 8 < 8 by omega, show i - 8 - 8 < 8 by omega]; congr 1; omega
      · simp [h1, show ¬ i - 8 < 8 by omega, show ¬ i - 8 - 8 < 8 by omega, show i - 8 - 8 - 8 < 8 by omega]
        congr 1; omega

theorem add_one_ne (a : Word) : a + 1 ≠ a ∧ a + 2 ≠ a ∧ a + 3 ≠ a ∧ a + 2 ≠ a + 1 ∧ a + 3 ≠ a + 1 ∧ a + 3 ≠ a + 2 := by
  refine ⟨?_, ?_, ?_, ?_, ?_, ?_⟩ <;> intro h <;> bv_omega

/-- A word read where it was stored. -/
theorem readWord_storeWord (s : State) (a v : Word) : (s.storeWord a v).readWord a = v := by
  obtain ⟨h1, h2, h3, h4, h5, h6⟩ := add_one_ne a
  rw [State.readWord]
  simp only [readByte_storeWord, h1, h2, h3, h4, h5, h6, if_true, if_false, wordOfBytes_extract]

end Sys2Proof.Machine
end

