-- ==== Sys2Proof/Laws/Registers.lean ====
section
/-! SUPPORT. The register file and its windows (10_state.md rules R22 to R26). -/

namespace Sys2Proof.Machine

/-! ## Which physical register a number names -/

theorem NWindows.two_le (n : NWindows) : 2 ≤ n.toNat := by cases n <;> decide

/-- r0 .. r7 are the globals in every window. -/
theorem physReg_of_lt {n : NWindows} {w : BitVec 5} {i : RegIdx} (h : i.toNat < 8) :
    physReg n w i = .global ⟨i.toNat, h⟩ := dif_pos h

/-- r8 .. r31 are windowed registers. -/
theorem physReg_of_ge {n : NWindows} {w : BitVec 5} {i : RegIdx} (h : 8 ≤ i.toNat) :
    ∃ hk, physReg n w i = .windowed ⟨(16 * w.toNat + (i.toNat - 8)) % (16 * n.toNat), hk⟩ :=
  ⟨_, dif_neg (by omega)⟩

/-- The 24 visible windowed registers are different registers: a window is 24 long and the file at least 32. -/
theorem window_index_injective {m w a b : Nat} (hm : 32 ≤ m) (ha : a < 24) (hb : b < 24)
    (h : (w + a) % m = (w + b) % m) : a = b := by
  have h' : a % m = b % m := Nat.ModEq.add_left_cancel' w h
  rwa [Nat.mod_eq_of_lt (by omega), Nat.mod_eq_of_lt (by omega)] at h'

/-- In one window, different numbers name different registers. -/
@[simp] theorem physReg_inj {n : NWindows} {w : BitVec 5} {i j : RegIdx} :
    physReg n w i = physReg n w j ↔ i = j := by
  refine ⟨fun h => ?_, fun h => h ▸ rfl⟩
  have hi := i.isLt
  have hj := j.isLt
  by_cases h1 : i.toNat < 8 <;> by_cases h2 : j.toNat < 8
  · rw [physReg_of_lt h1, physReg_of_lt h2, PhysReg.global.injEq, Fin.mk.injEq] at h
    exact BitVec.eq_of_toNat_eq h
  · obtain ⟨_, e⟩ := physReg_of_ge (n := n) (w := w) (Nat.not_lt.1 h2)
    rw [physReg_of_lt h1, e] at h
    cases h
  · obtain ⟨_, e⟩ := physReg_of_ge (n := n) (w := w) (Nat.not_lt.1 h1)
    rw [physReg_of_lt h2, e] at h
    cases h
  · obtain ⟨_, e1⟩ := physReg_of_ge (n := n) (w := w) (Nat.not_lt.1 h1)
    obtain ⟨_, e2⟩ := physReg_of_ge (n := n) (w := w) (Nat.not_lt.1 h2)
    rw [e1, e2, PhysReg.windowed.injEq, Fin.mk.injEq] at h
    have := window_index_injective (by have := NWindows.two_le n; omega) (by omega) (by omega) h
    exact BitVec.eq_of_toNat_eq (by omega)

/-- A number names G[0] exactly when it is r0. -/
@[simp] theorem physReg_eq_zero {n : NWindows} {w : BitVec 5} {i : RegIdx} :
    physReg n w i = .global 0 ↔ i = 0 := by
  have h0 : physReg n w 0 = .global 0 := rfl
  rw [← h0, physReg_inj]

/-! ## Reads after writes -/

theorem Regs.read_write_same (r : Regs) (p : PhysReg) (v : Word) :
    (r.write p v).read p = if p = .global 0 then 0 else v := by
  cases p with
  | global k =>
    by_cases h : k = 0
    · subst h; rfl
    · simp [Regs.write, Regs.read, h]
  | windowed k => simp [Regs.write, Regs.read]

theorem Regs.read_write_ne (r : Regs) {p q : PhysReg} (v : Word) (h : p ≠ q) :
    (r.write p v).read q = r.read q := by
  cases p with
  | global k =>
    by_cases hk : k = 0
    · subst hk; rfl
    · cases q with
      | global j =>
        have : k.val ≠ j.val := fun e => h (by rw [Fin.ext e])
        simp [Regs.write, Regs.read, hk, Vector.getElem_set_ne, this]
      | windowed j => simp [Regs.write, Regs.read, hk]
  | windowed k =>
    cases q with
    | global j => simp [Regs.write, Regs.read]
    | windowed j =>
      have : k.val ≠ j.val := fun e => h (by rw [Fin.ext e])
      simp [Regs.write, Regs.read, Vector.getElem_set_ne, this]

theorem Regs.read_write (r : Regs) (p q : PhysReg) (v : Word) :
    (r.write p v).read q = if p = q then (if p = .global 0 then 0 else v) else r.read q := by
  by_cases h : p = q
  · subst h; rw [if_pos rfl, Regs.read_write_same]
  · rw [if_neg h, Regs.read_write_ne r v h]

/-- r0 reads zero in every window. -/
@[simp] theorem readRegAt_zero (s : State) (w : BitVec 5) : s.readRegAt w 0 = 0 := rfl

@[simp] theorem readReg_zero (s : State) : s.readReg 0 = 0 := rfl

/-- A read by window and number after a write by window and number. -/
theorem readRegAt_writeRegAt (s : State) (w w' : BitVec 5) (i j : RegIdx) (v : Word) :
    (s.writeRegAt w i v).readRegAt w' j =
      if physReg s.cfg.nwindows w i = physReg s.cfg.nwindows w' j then (if i = 0 then 0 else v)
      else s.readRegAt w' j := by
  simp only [State.readRegAt, writeRegAt_regs, writeRegAt_cfg, Regs.read_write, physReg_eq_zero]

/-- A read in the window of the write. -/
@[simp] theorem readRegAt_writeRegAt_window (s : State) (w : BitVec 5) (i j : RegIdx) (v : Word) :
    (s.writeRegAt w i v).readRegAt w j = if i = j then (if i = 0 then 0 else v) else s.readRegAt w j := by
  simp only [readRegAt_writeRegAt, physReg_inj]

@[simp] theorem readReg_writeReg (s : State) (i j : RegIdx) (v : Word) :
    (s.writeReg i v).readReg j = if i = j then (if i = 0 then 0 else v) else s.readReg j :=
  readRegAt_writeRegAt_window s s.psr.cwp i j v

/-- A read through the current window depends on the register file, the parameters and CWP alone. -/
theorem readReg_congr {s t : State} (hr : t.regs = s.regs) (hc : t.cfg = s.cfg) (hw : t.psr.cwp = s.psr.cwp)
    (i : RegIdx) : t.readReg i = s.readReg i := by
  simp only [State.readReg, State.readRegAt, hr, hc, hw]

/-! ## What the statements say of registers -/

theorem RegsKept.refl (s : State) (l : List PhysReg) : RegsKept s s l := fun _ _ _ => rfl

/-- Nothing changes where the register file and the parameters stay. -/
theorem RegsKept.of_eq {s t : State} (hr : t.regs = s.regs) (hc : t.cfg = s.cfg) (l : List PhysReg) :
    RegsKept s t l := fun w i _ => by simp only [State.readRegAt, hr, hc]

/-- One write changes one register. -/
theorem RegsKept.of_write {s t : State} {p : PhysReg} {v : Word} (hr : t.regs = s.regs.write p v)
    (hc : t.cfg = s.cfg) : RegsKept s t [p] := fun w i h => by
  have h' : p ≠ physReg s.cfg.nwindows w i := fun e => h (by simp [e])
  simp only [State.readRegAt, hr, hc, Regs.read_write_ne _ _ h']

/-- Two writes change two registers. -/
theorem RegsKept.of_write_write {s t : State} {p q : PhysReg} {v u : Word}
    (hr : t.regs = (s.regs.write p v).write q u) (hc : t.cfg = s.cfg) : RegsKept s t [p, q] := fun w i h => by
  have hp : p ≠ physReg s.cfg.nwindows w i := fun e => h (by simp [e])
  have hq : q ≠ physReg s.cfg.nwindows w i := fun e => h (by simp [e])
  simp only [State.readRegAt, hr, hc, Regs.read_write_ne _ _ hp, Regs.read_write_ne _ _ hq]

/-- The register written reads the value written, or zero for r0. -/
theorem RegIs.of_write {s t : State} {i : RegIdx} {v : Word}
    (hr : t.regs = s.regs.write (physReg s.cfg.nwindows t.psr.cwp i) v) (hc : t.cfg = s.cfg) : RegIs t i v := by
  simp only [RegIs, State.readReg, State.readRegAt, hr, hc, Regs.read_write_same, physReg_eq_zero]

/-! ## The ring of windows -/

theorem prevWindow_toNat (n : NWindows) (w : BitVec 5) :
    (prevWindow n w).toNat = (w.toNat + n.toNat - 1) % n.toNat := by
  have h1 := NWindows.toNat_le n
  have h2 := Nat.mod_lt (w.toNat + n.toNat - 1) (NWindows.toNat_pos n)
  rw [prevWindow, BitVec.toNat_ofNat, Nat.mod_eq_of_lt (by omega)]

theorem nextWindow_toNat (n : NWindows) (w : BitVec 5) :
    (nextWindow n w).toNat = (w.toNat + 1) % n.toNat := by
  have h1 := NWindows.toNat_le n
  have h2 := Nat.mod_lt (w.toNat + 1) (NWindows.toNat_pos n)
  rw [nextWindow, BitVec.toNat_ofNat, Nat.mod_eq_of_lt (by omega)]

theorem prevWindow_lt (n : NWindows) (w : BitVec 5) : (prevWindow n w).toNat < n.toNat := by
  rw [prevWindow_toNat]; exact Nat.mod_lt _ (NWindows.toNat_pos n)

theorem nextWindow_lt (n : NWindows) (w : BitVec 5) : (nextWindow n w).toNat < n.toNat := by
  rw [nextWindow_toNat]; exact Nat.mod_lt _ (NWindows.toNat_pos n)

/-- Below a window and up again is the same window. -/
theorem nextWindow_prevWindow {n : NWindows} {w : BitVec 5} (h : w.toNat < n.toNat) :
    nextWindow n (prevWindow n w) = w := by
  apply BitVec.eq_of_toNat_eq
  rw [nextWindow_toNat, prevWindow_toNat]
  by_cases h0 : w.toNat = 0
  · rw [h0, Nat.mod_eq_of_lt (by omega : 0 + n.toNat - 1 < n.toNat),
      show 0 + n.toNat - 1 + 1 = n.toNat by omega, Nat.mod_self]
  · rw [show w.toNat + n.toNat - 1 = (w.toNat - 1) + n.toNat by omega, Nat.add_mod_right,
      Nat.mod_eq_of_lt (by omega : w.toNat - 1 < n.toNat), show w.toNat - 1 + 1 = w.toNat by omega,
      Nat.mod_eq_of_lt h]

/-- Above a window and down again is the same window. -/
theorem prevWindow_nextWindow {n : NWindows} {w : BitVec 5} (h : w.toNat < n.toNat) :
    prevWindow n (nextWindow n w) = w := by
  apply BitVec.eq_of_toNat_eq
  rw [prevWindow_toNat, nextWindow_toNat]
  by_cases h0 : w.toNat + 1 = n.toNat
  · rw [h0, Nat.mod_self, Nat.zero_add, Nat.mod_eq_of_lt (by omega : n.toNat - 1 < n.toNat)]; omega
  · rw [Nat.mod_eq_of_lt (by omega : w.toNat + 1 < n.toNat),
      show w.toNat + 1 + n.toNat - 1 = w.toNat + n.toNat by omega, Nat.add_mod_right, Nat.mod_eq_of_lt h]

end Sys2Proof.Machine
end

