-- ==== Sys2Proof/Laws/Ops.lean ====
section
/-! SUPPORT. What each shared operation does, said once: the frames of the forms of statement, raising a trap, a data
access, the checks before an effect, the shared meanings of the families. -/

namespace Sys2Proof.Machine

/-! ## Frames -/

theorem HiddenKept.refl (s : State) : HiddenKept s s := ⟨rfl, rfl, rfl, rfl⟩

theorem SpecialsKept.refl (s : State) : SpecialsKept s s := ⟨rfl, rfl, rfl⟩

theorem MemKept.refl (s : State) : MemKept s s := ⟨fun _ => rfl, rfl, rfl⟩

/-- Memory that is the same data is the same memory. -/
theorem MemKept.of_eq {s t : State} (hm : t.mem = s.mem) (hs : t.storedTo = s.storedTo)
    (hd : t.dmaPending = s.dmaPending) : MemKept s t :=
  ⟨fun a => by simp only [State.readByte, hm], hs, hd⟩

/-! ## Windows and WIM -/

/-- A bit of the mask of windows. -/
theorem windowMask_getLsbD (n : NWindows) (w : Nat) : (windowMask n).getLsbD w = decide (w < n.toNat) := by
  have h := NWindows.toNat_le n
  rw [windowMask, BitVec.getLsbD_ofNat, Nat.testBit_two_pow_sub_one]
  by_cases hw : w < n.toNat <;> simp [hw]
  omega

/-- The WIM bit of a window that exists. -/
theorem windowInvalid_eq (s : State) (w : BitVec 5) (h : w.toNat < s.cfg.nwindows.toNat) :
    s.windowInvalid w = s.wim.getLsbD w.toNat := by
  rw [State.windowInvalid, State.wimWord, BitVec.getLsbD_and, windowMask_getLsbD]
  simp [h]

/-! ## Raising a trap -/

theorem TrapsTaken.raise {s : State} (h : TrapsTaken s) (t : Trap) : raise t s = .next (s.trapEntry t.tt) := by
  simp [Machine.raise, h.et, h.settled, h.tbr]

/-- Everything raising a trap can do. -/
theorem raise_cases (t : Trap) (s : State) :
    (s.modeOrWindowUnsettled = true ∧ raise t s = .refused (.trapInDelayedWrite .psr)) ∨
    (s.modeOrWindowUnsettled = false ∧ s.psr.et = false ∧ raise t s = .next s.enterErrorMode) ∨
    (s.modeOrWindowUnsettled = false ∧ s.psr.et = true ∧ s.pending.tbr ≠ 0 ∧
      raise t s = .refused (.trapInDelayedWrite .tbr)) ∨
    (TrapsTaken s ∧ raise t s = .next (s.trapEntry t.tt)) := by
  by_cases h1 : s.modeOrWindowUnsettled = true
  · exact .inl ⟨h1, by simp [raise, h1]⟩
  · have h1 : s.modeOrWindowUnsettled = false := by simpa using h1
    by_cases h2 : s.psr.et = true
    · by_cases h3 : s.pending.tbr = 0
      · exact .inr (.inr (.inr ⟨⟨h2, h1, h3⟩, TrapsTaken.raise ⟨h2, h1, h3⟩ t⟩))
      · exact .inr (.inr (.inl ⟨h1, h2, h3, by simp [raise, h1, h2, h3]⟩))
    · have h2 : s.psr.et = false := by simpa using h2
      exact .inr (.inl ⟨h1, h2, by simp [raise, h1, h2]⟩)

/-- If raising a trap answers a next state, it is error mode with ET = 0 or the trap entry with ET = 1. -/
theorem raise_next {t : Trap} {s u : State} (h : raise t s = .next u) :
    (s.psr.et = false ∧ u = s.enterErrorMode) ∨ (TrapsTaken s ∧ u = s.trapEntry t.tt) := by
  rcases raise_cases t s with ⟨_, e⟩ | ⟨_, he, e⟩ | ⟨_, _, _, e⟩ | ⟨ht, e⟩ <;> rw [e] at h <;> cases h
  · exact .inl ⟨he, rfl⟩
  · exact .inr ⟨ht, rfl⟩

theorem enterErrorMode_inErrorMode (s : State) : InErrorMode s s.enterErrorMode := ⟨_, _, rfl⟩

/-- Trap entry writes r17 and r18 of the new window. -/
theorem trapEntry_regs (s : State) (tt : BitVec 8) :
    (s.trapEntry tt).regs =
      (s.regs.write (physReg s.cfg.nwindows (prevWindow s.cfg.nwindows s.psr.cwp) 17) s.pc).write
        (physReg s.cfg.nwindows (prevWindow s.cfg.nwindows s.psr.cwp) 18) s.npc := rfl

/-- The trap entry sequence is the one of 60_exceptions.md rule R330. -/
theorem trapEntry_entered (s : State) (tt : BitVec 8) : TrapEntered s (s.trapEntry tt) tt where
  tbr := rfl
  psr := rfl
  r17 := by simp [State.readReg, State.readRegAt, trapEntry_regs, Regs.read_write]
  r18 := by simp [State.readReg, State.readRegAt, trapEntry_regs, Regs.read_write]
  regs := RegsKept.of_write_write rfl rfl
  pc := rfl
  npc := rfl
  dctiPrev := rfl
  pending := rfl
  wim := rfl
  y := rfl
  mem := MemKept.of_eq rfl rfl rfl
  hidden := ⟨rfl, rfl, rfl, rfl⟩

/-! ## The checks before an effect -/

theorem aligned_iff (n : Nat) (a : Word) : aligned n a = true ↔ a.toNat % n = 0 := by simp [aligned]

theorem not_aligned_iff (n : Nat) (a : Word) : aligned n a = false ↔ a.toNat % n ≠ 0 := by simp [aligned]

theorem privileged_supervisor {s : State} (h : s.psr.s = true) (k : Result) : privileged s k = k := by
  simp [privileged, h]

theorem privileged_user {s : State} (h : s.psr.s = false) (k : Result) :
    privileged s k = raise .privilegedInstruction s := by simp [privileged, h]

/-- A data access is in one of the three cases of 42_load_store.md rule R209. -/
theorem withAccess_accesses (n : Nat) (ea : Word) (s done : State) {effect : State → Prop} (h : effect done) :
    Accesses s n ea (withAccess n ea s done) effect := by
  refine ⟨fun h1 => ?_, fun h1 h2 => ?_, fun h1 h2 => ⟨done, ?_, h⟩⟩
  · simp [withAccess, (not_aligned_iff n ea).2 h1]
  · simp [withAccess, (aligned_iff n ea).2 h1, h2]
  · simp [withAccess, (aligned_iff n ea).2 h1, h2]

/-- If a data access answers a next state, it raised a trap or had its effect. -/
theorem withAccess_next {n : Nat} {ea : Word} {s done u : State} (h : withAccess n ea s done = .next u) :
    (∃ t, raise t s = .next u) ∨ u = done := by
  rw [withAccess] at h
  split at h
  · exact .inl ⟨_, h⟩
  · split at h
    · exact .inl ⟨_, h⟩
    · cases h; exact .inr rfl

theorem divideBy_zero (s : State) (k : Result) : divideBy 0 s k = raise .divisionByZero s := if_pos rfl

theorem divideBy_nonzero {b : Word} (h : b ≠ 0) (s : State) (k : Result) : divideBy b s k = k := if_neg h

theorem evenPair_even {rd : RegIdx} (h : rd.toNat % 2 = 0) (s : State) (k : Result) : evenPair rd s k = k := by
  have : rd.getLsbD 0 = false := by simp [BitVec.getLsbD, Nat.testBit_zero, h]
  rw [evenPair, this, if_neg (by simp)]

theorem evenPair_odd {rd : RegIdx} (h : rd.toNat % 2 = 1) (s : State) (k : Result) :
    evenPair rd s k = raise .illegalInstruction s := by
  have : rd.getLsbD 0 = true := by simp [BitVec.getLsbD, Nat.testBit_zero, h]
  rw [evenPair, this, if_pos rfl]

/-! ## The shared meanings -/

/-- x[rd], icc and Y written, then `advance`: the one state all the computing meanings answer. -/
theorem computes_advance (s : State) (rd : RegIdx) (v : Word) (f : Icc) (y : Word) :
    Computes s ((((s.writeReg rd v).setY y).setIcc f).advance) rd v f y where
  result := RegIs.of_write rfl rfl
  regs := RegsKept.of_write rfl rfl
  psr := rfl
  y := rfl
  wim := rfl
  tbr := rfl
  mem := MemKept.of_eq rfl rfl rfl
  hidden := ⟨rfl, rfl, rfl, rfl⟩
  pc := rfl
  npc := rfl
  dctiPrev := rfl
  pending := rfl

theorem writeResult_spec (rd : RegIdx) (v : Word) (s : State) :
    ∃ t, writeResult rd v s = .next t ∧ Computes s t rd v s.psr.icc s.y :=
  ⟨_, rfl, computes_advance s rd v s.psr.icc s.y⟩

theorem writeResultCc_spec (rd : RegIdx) (v : Word) (f : Icc) (s : State) :
    ∃ t, writeResultCc rd v f s = .next t ∧ Computes s t rd v f s.y :=
  ⟨_, rfl, computes_advance s rd v f s.y⟩

theorem writeProduct_spec (rd : RegIdx) (p : BitVec 64) (s : State) :
    ∃ t, writeProduct rd p s = .next t ∧ Computes s t rd (lowWord p) s.psr.icc (highWord p) :=
  ⟨_, rfl, computes_advance s rd (lowWord p) s.psr.icc (highWord p)⟩

theorem writeProductCc_spec (rd : RegIdx) (p : BitVec 64) (s : State) :
    ∃ t, writeProductCc rd p s = .next t ∧ Computes s t rd (lowWord p) (logicFlags (lowWord p)) (highWord p) :=
  ⟨_, rfl, computes_advance s rd (lowWord p) (logicFlags (lowWord p)) (highWord p)⟩

theorem loadValue_spec (n : Nat) (ea : Word) (rd : RegIdx) (v : Word) (s : State) :
    Accesses s n ea (loadValue n ea rd v s) fun t => Computes s t rd v s.psr.icc s.y :=
  withAccess_accesses n ea s _ (computes_advance s rd v s.psr.icc s.y)

/-- PC and nPC moved and nothing else: the state a branch answers. -/
theorem complete_onlyMoves (s : State) (pc npc : Word) (d : DctiPrev) : OnlyMoves s (s.complete pc npc d) pc npc d where
  regs := RegsKept.of_eq rfl rfl _
  psr := rfl
  specials := ⟨rfl, rfl, rfl⟩
  mem := MemKept.of_eq rfl rfl rfl
  hidden := ⟨rfl, rfl, rfl, rfl⟩
  completed := ⟨rfl, rfl, rfl, rfl⟩

/-- The state CALL and JMPL answer. -/
theorem links_complete (s : State) (rd : RegIdx) (npc : Word) :
    Links s ((s.writeReg rd s.pc).complete s.npc npc .uncond) rd npc where
  result := RegIs.of_write rfl rfl
  regs := RegsKept.of_write rfl rfl
  psr := rfl
  specials := ⟨rfl, rfl, rfl⟩
  mem := MemKept.of_eq rfl rfl rfl
  hidden := ⟨rfl, rfl, rfl, rfl⟩
  completed := ⟨rfl, rfl, rfl, rfl⟩

/-- The state SAVE and RESTORE answer. -/
theorem moveWindow_spec (w : BitVec 5) (rd : RegIdx) (v : Word) (s : State) :
    ∃ t, moveWindow w rd v s = .next t ∧ MovesWindow s t w rd v :=
  ⟨_, rfl, { psr := rfl
             result := RegIs.of_write rfl rfl
             regs := RegsKept.of_write rfl rfl
             specials := ⟨rfl, rfl, rfl⟩
             mem := MemKept.of_eq rfl rfl rfl
             hidden := ⟨rfl, rfl, rfl, rfl⟩
             advanced := ⟨rfl, rfl, rfl, rfl⟩ }⟩

/-- The four cases of a branch. -/
theorem bicc_spec (k : Cond) (a : Bool) (disp22 : BitVec 22) (s : State) :
    ∃ t, bicc k a disp22 s = .next t ∧
      if condTrue k s.psr.icc = true then
        if k = .a ∧ a = true then OnlyMoves s t (s.branchTarget disp22) (s.branchTarget disp22 + 4) .none
        else OnlyMoves s t s.npc (s.branchTarget disp22) (if k = .a then .uncond else .cond)
      else if a = true then OnlyMoves s t (s.npc + 4) (s.npc + 8) .none
      else OnlyMoves s t s.npc (s.npc + 4) .cond := by
  unfold bicc
  dsimp only
  split_ifs <;> exact ⟨_, rfl, complete_onlyMoves _ _ _ _⟩

/-- A trap instruction raises its trap or only advances. -/
theorem ticc_spec (k : Cond) (rs1 : RegIdx) (num : TrapNumber) (s : State) :
    (condTrue k s.psr.icc = true → ticc k rs1 num s = raise (.trapInstruction (s.trapNumber rs1 num)) s) ∧
      (condTrue k s.psr.icc = false → ticc k rs1 num s = .next s.advance) := by
  constructor <;> intro h <;> simp [ticc, h]

/-- The sixteen branches are one operation. -/
theorem exec_branchOf (k : Cond) (a : Bool) (disp22 : BitVec 22) (s : State) :
    exec (branchOf k a disp22) s = bicc k a disp22 s := by cases k <;> rfl

/-- The sixteen trap instructions are one operation. -/
theorem exec_trapOf (k : Cond) (rs1 : RegIdx) (num : TrapNumber) (s : State) :
    exec (trapOf k rs1 num) s = ticc k rs1 num s := by cases k <;> rfl

theorem biccOfCond_code (k : Cond) (a : Bool) (disp22 : BitVec 22) :
    biccOfCond (condCode k) a disp22 = branchOf k a disp22 := by cases k <;> rfl

theorem ticcOfCond_code (k : Cond) (rs1 : RegIdx) (num : TrapNumber) :
    ticcOfCond (condCode k) rs1 num = trapOf k rs1 num := by cases k <;> rfl

/-! ## Stores -/

theorem mem_bytesFrom {a ea : Word} {n : Nat} : a ∈ bytesFrom ea n ↔ ∃ k, k < n ∧ a = ea + BitVec.ofNat 32 k := by
  simp only [bytesFrom, List.mem_map, List.mem_range]
  exact ⟨fun ⟨k, hk, e⟩ => ⟨k, hk, e.symm⟩, fun ⟨k, hk, e⟩ => ⟨k, hk, e.symm⟩⟩

theorem mem_bytesFrom_one {a ea : Word} : a ∈ bytesFrom ea 1 ↔ a = ea := by
  rw [show bytesFrom ea 1 = [ea + 0] from rfl]
  simp

theorem mem_bytesFrom_two {a ea : Word} : a ∈ bytesFrom ea 2 ↔ a = ea ∨ a = ea + 1 := by
  rw [show bytesFrom ea 2 = [ea + 0, ea + 1] from rfl]
  simp

theorem mem_bytesFrom_four {a ea : Word} :
    a ∈ bytesFrom ea 4 ↔ a = ea ∨ a = ea + 1 ∨ a = ea + 2 ∨ a = ea + 3 := by
  rw [show bytesFrom ea 4 = [ea + 0, ea + 1, ea + 2, ea + 3] from rfl]
  simp

/-- The eight bytes of a doubleword are the four at it and the four after them. -/
theorem mem_bytesFrom_eight {a ea : Word} : a ∈ bytesFrom ea 8 ↔ a ∈ bytesFrom ea 4 ∨ a ∈ bytesFrom (ea + 4) 4 := by
  rw [mem_bytesFrom_four, mem_bytesFrom_four, show ea + 4 + 1 = ea + 5 by bv_omega,
    show ea + 4 + 2 = ea + 6 by bv_omega, show ea + 4 + 3 = ea + 7 by bv_omega,
    show bytesFrom ea 8 = [ea + 0, ea + 1, ea + 2, ea + 3, ea + 4, ea + 5, ea + 6, ea + 7] from rfl]
  simp [or_assoc]

theorem storeByte_keptOutside (s : State) (ea : Word) (b : Byte) : MemKeptOutside s (s.storeByte ea b) ea 1 := by
  refine ⟨fun a h => ?_, fun a => by rw [mem_storeByte_storedTo, mem_bytesFrom_one], rfl⟩
  rw [mem_bytesFrom_one] at h
  rw [readByte_storeByte, if_neg (Ne.symm h)]

theorem storeHalf_keptOutside (s : State) (ea : Word) (v : BitVec 16) :
    MemKeptOutside s (s.storeHalf ea v) ea 2 := by
  refine ⟨fun a h => ?_, fun a => by rw [mem_storeHalf_storedTo, mem_bytesFrom_two], rfl⟩
  rw [mem_bytesFrom_two, not_or] at h
  rw [readByte_storeHalf, if_neg (Ne.symm h.2), if_neg (Ne.symm h.1)]

theorem storeWord_keptOutside (s : State) (ea v : Word) : MemKeptOutside s (s.storeWord ea v) ea 4 := by
  refine ⟨fun a h => ?_, fun a => by rw [mem_storeWord_storedTo, mem_bytesFrom_four], rfl⟩
  rw [mem_bytesFrom_four, not_or, not_or, not_or] at h
  rw [readByte_storeWord, if_neg (Ne.symm h.2.2.2), if_neg (Ne.symm h.2.2.1), if_neg (Ne.symm h.2.1),
    if_neg (Ne.symm h.1)]

/-- The two words of a doubleword store and the DMA writes between them: DMA may replace a byte of the first word or one
outside the doubleword, and the second word replaces what DMA wrote there. -/
theorem readByte_storeDouble (s : State) (ea v u a : Word) :
    (s.storeDouble ea v u).readByte a =
      if a ∈ bytesFrom (ea + 4) 4 then (s.storeWord (ea + 4) u).readByte a
      else lastWrite s.dmaPending a ((s.storeWord ea v).readByte a) := by
  rw [State.storeDouble]
  split
  · next h =>
    rw [mem_bytesFrom_four] at h
    obtain ⟨h1, h2, h3, h4, h5, h6⟩ := add_one_ne (ea + 4)
    rcases h with rfl | rfl | rfl | rfl <;> simp only [readByte_storeWord, h1, h2, h3, h4, h5, h6, if_true, if_false]
  · next h => rw [(storeWord_keptOutside _ _ _).bytes a h, readByte_landDma, storeWord_dmaPending]

theorem storeDouble_recordsStore (s : State) (ea v u : Word) : RecordsStore s (s.storeDouble ea v u) ea 8 := fun a => by
  rw [State.storeDouble, (storeWord_keptOutside _ (ea + 4) u).storedTo, landDma_storedTo,
    (storeWord_keptOutside s ea v).storedTo, mem_bytesFrom_eight, or_assoc]

theorem readWord_storeDouble (s : State) (ea v u : Word) : (s.storeDouble ea v u).readWord (ea + 4) = u :=
  readWord_storeWord _ _ _

/-- The first word of a doubleword lies outside the second. -/
theorem first_word_not_in_second (ea : Word) :
    ea ∉ bytesFrom (ea + 4) 4 ∧ ea + 1 ∉ bytesFrom (ea + 4) 4 ∧ ea + 2 ∉ bytesFrom (ea + 4) 4 ∧
      ea + 3 ∉ bytesFrom (ea + 4) 4 := by
  refine ⟨?_, ?_, ?_, ?_⟩ <;> rw [mem_bytesFrom_four] <;> rintro (h | h | h | h) <;> bv_omega

/-- The first word of a doubleword store: each byte is what the store wrote or what DMA wrote over it. -/
theorem readByte_storeDouble_first (s : State) (ea v u : Word) :
    let t := s.storeDouble ea v u
    let dma := lastWrite s.dmaPending
    t.readByte ea = dma ea (v.extractLsb' 24 8) ∧ t.readByte (ea + 1) = dma (ea + 1) (v.extractLsb' 16 8) ∧
      t.readByte (ea + 2) = dma (ea + 2) (v.extractLsb' 8 8) ∧ t.readByte (ea + 3) = dma (ea + 3) (v.extractLsb' 0 8) := by
  obtain ⟨n0, n1, n2, n3⟩ := first_word_not_in_second ea
  obtain ⟨h1, h2, h3, h4, h5, h6⟩ := add_one_ne ea
  refine ⟨?_, ?_, ?_, ?_⟩
  · rw [readByte_storeDouble, if_neg n0]; simp [readByte_storeWord]
  · rw [readByte_storeDouble, if_neg n1]; simp [readByte_storeWord]
  · rw [readByte_storeDouble, if_neg n2]; simp [readByte_storeWord]
  · rw [readByte_storeDouble, if_neg n3]; simp [readByte_storeWord]

/-- Every byte outside the doubleword is what DMA wrote to it or what it was. -/
theorem readByte_storeDouble_outside (s : State) {ea a : Word} (v u : Word) (h : a ∉ bytesFrom ea 8) :
    (s.storeDouble ea v u).readByte a = lastWrite s.dmaPending a (s.readByte a) := by
  rw [mem_bytesFrom_eight, not_or] at h
  rw [readByte_storeDouble, if_neg h.2, (storeWord_keptOutside s ea v).bytes a h.1]

/-- With no DMA under way a doubleword store changes its eight bytes and no other, the first word at ea. -/
theorem storeDouble_keptOutside (s : State) (ea v u : Word) (h : s.dmaPending = []) :
    MemKeptOutside s (s.storeDouble ea v u) ea 8 ∧ (s.storeDouble ea v u).readWord ea = v := by
  refine ⟨⟨fun a ha => ?_, storeDouble_recordsStore s ea v u, by rw [storeDouble_dmaPending, h]⟩, ?_⟩
  · rw [readByte_storeDouble_outside s v u ha, h]; rfl
  · obtain ⟨h0, h1, h2, h3⟩ := readByte_storeDouble_first s ea v u
    rw [State.readWord, h0, h1, h2, h3, h]
    exact wordOfBytes_extract v

/-- A store kept outside its bytes, with nothing else but PC and nPC and the listed registers moved. -/
theorem stores_advance {s u : State} {ea : Word} {n : Nat} {l : List PhysReg} (hm : MemKeptOutside s u ea n)
    (hr : RegsKept s u l) (hp : u.psr = s.psr) (hs : SpecialsKept s u) (hh : HiddenKept s u)
    (h2 : u.npc = s.npc) (h3 : u.pending = s.pending) : Stores s u.advance ea n l where
  mem := ⟨hm.bytes, hm.storedTo, hm.dmaPending⟩
  regs := hr
  psr := hp
  specials := ⟨hs.1, hs.2, hs.3⟩
  hidden := ⟨hh.1, hh.2, hh.3, hh.4⟩
  advanced := by
    refine ⟨?_, ?_, rfl, ?_⟩
    · rw [advance_pc, h2]
    · rw [advance_npc, h2]
    · rw [advance_pending, h3]

/-! ## The step around an instruction -/

/-- With no request the interrupt test lets the machine go on. -/
theorem withInterruptTest_none {irl : BitVec 4} {s : State} {k : Result}
    (h1 : interruptTest irl s.psr.et s.psr.pil = false)
    (h2 : interruptTest irl s.psr.et s.pending.oldPil = false) : withInterruptTest irl s k = k := by
  simp [withInterruptTest, h1, h2]

@[simp] theorem interruptTest_zero (et : Bool) (pil : BitVec 4) : interruptTest 0 et pil = false := by
  simp [interruptTest]

/-- With the environment at rest taking its input in changes nothing. -/
theorem takeInput_idle {s : State} (hi : s.inputs = []) (hd : s.dmaPending = []) : s.takeInput = s := by
  cases s
  simp only at hi hd
  subst hi hd
  rfl

/-- With the environment at rest a step is the instruction at PC. -/
theorem step_idle {s : State} (hi : s.inputs = []) (hd : s.dmaPending = []) (he : s.errorMode = false) :
    step s = runAtPc s := by
  have hin : s.input = .idle := by simp [State.input, hi]
  rw [step, takeInput_idle hi hd, hin]
  simp only [Input.idle, he]
  rw [if_neg (by simp), withInterruptTest_none (interruptTest_zero _ _) (interruptTest_zero _ _)]

/-- The outcome of the instruction at PC, where it answers a next state: a trap, or the decoded instruction. -/
theorem runAtPc_next {s t : State} (h : runAtPc s = .next t) :
    (∃ trap, raise trap s = .next t) ∨
      ∃ i, decodeBytes s.cfg s.fetchBytes = .instr i ∧ hazard i s = none ∧ exec i s = .next t := by
  rw [runAtPc, withFetch] at h
  split at h
  · exact .inl ⟨_, h⟩
  · split at h
    · cases h
    · unfold runDecoded at h
      split at h
      · rename_i i hi
        rw [runInstr] at h
        split at h
        · cases h
        · rename_i hh
          exact .inr ⟨i, hi, hh, h⟩
      · exact .inl ⟨_, h⟩
      · exact .inl ⟨_, h⟩
      · exact .inl ⟨_, h⟩
      · cases h

end Sys2Proof.Machine
end

