-- ==== Sys2Proof/Laws/PerInstr.lean ====
section
/-! SUPPORT. What is proved of every instruction, one lemma per constructor: its word carries the identifying bits of its
own row of spec/opcode_table.json. -/

namespace Sys2Proof.Laws.EncodingMatchesTableRow

/-- The `match` and `mask` of each row of spec/opcode_table.json. -/
def row : Instr → Word × Word
  | .unimp _ _ => (0x00000000, 0xC1C00000)
  | .nop => (0x01000000, 0xFFFFFFFF)
  | .sethi _ _ => (0x01000000, 0xC1C00000)
  | .ba _ _ => (0x10800000, 0xDFC00000)
  | .bn _ _ => (0x00800000, 0xDFC00000)
  | .bne _ _ => (0x12800000, 0xDFC00000)
  | .be _ _ => (0x02800000, 0xDFC00000)
  | .bg _ _ => (0x14800000, 0xDFC00000)
  | .ble _ _ => (0x04800000, 0xDFC00000)
  | .bge _ _ => (0x16800000, 0xDFC00000)
  | .bl _ _ => (0x06800000, 0xDFC00000)
  | .bgu _ _ => (0x18800000, 0xDFC00000)
  | .bleu _ _ => (0x08800000, 0xDFC00000)
  | .bcc _ _ => (0x1A800000, 0xDFC00000)
  | .bcs _ _ => (0x0A800000, 0xDFC00000)
  | .bpos _ _ => (0x1C800000, 0xDFC00000)
  | .bneg _ _ => (0x0C800000, 0xDFC00000)
  | .bvc _ _ => (0x1E800000, 0xDFC00000)
  | .bvs _ _ => (0x0E800000, 0xDFC00000)
  | .call _ => (0x40000000, 0xC0000000)
  | .add _ _ _ => (0x80000000, 0xC1F80000)
  | .addcc _ _ _ => (0x80800000, 0xC1F80000)
  | .addx _ _ _ => (0x80400000, 0xC1F80000)
  | .addxcc _ _ _ => (0x80C00000, 0xC1F80000)
  | .sub _ _ _ => (0x80200000, 0xC1F80000)
  | .subcc _ _ _ => (0x80A00000, 0xC1F80000)
  | .subx _ _ _ => (0x80600000, 0xC1F80000)
  | .subxcc _ _ _ => (0x80E00000, 0xC1F80000)
  | .taddcc _ _ _ => (0x81000000, 0xC1F80000)
  | .taddcctv _ _ _ => (0x81100000, 0xC1F80000)
  | .tsubcc _ _ _ => (0x81080000, 0xC1F80000)
  | .tsubcctv _ _ _ => (0x81180000, 0xC1F80000)
  | .mulscc _ _ _ => (0x81200000, 0xC1F80000)
  | .umul _ _ _ => (0x80500000, 0xC1F80000)
  | .umulcc _ _ _ => (0x80D00000, 0xC1F80000)
  | .smul _ _ _ => (0x80480000, 0xC1F80000)
  | .smulcc _ _ _ => (0x80C80000, 0xC1F80000)
  | .udiv _ _ _ => (0x80700000, 0xC1F80000)
  | .udivcc _ _ _ => (0x80F00000, 0xC1F80000)
  | .sdiv _ _ _ => (0x80780000, 0xC1F80000)
  | .sdivcc _ _ _ => (0x80F80000, 0xC1F80000)
  | .and _ _ _ => (0x80080000, 0xC1F80000)
  | .andcc _ _ _ => (0x80880000, 0xC1F80000)
  | .or _ _ _ => (0x80100000, 0xC1F80000)
  | .orcc _ _ _ => (0x80900000, 0xC1F80000)
  | .xor _ _ _ => (0x80180000, 0xC1F80000)
  | .xorcc _ _ _ => (0x80980000, 0xC1F80000)
  | .andn _ _ _ => (0x80280000, 0xC1F80000)
  | .andncc _ _ _ => (0x80A80000, 0xC1F80000)
  | .orn _ _ _ => (0x80300000, 0xC1F80000)
  | .orncc _ _ _ => (0x80B00000, 0xC1F80000)
  | .xnor _ _ _ => (0x80380000, 0xC1F80000)
  | .xnorcc _ _ _ => (0x80B80000, 0xC1F80000)
  | .sll _ _ _ => (0x81280000, 0xC1F80000)
  | .srl _ _ _ => (0x81300000, 0xC1F80000)
  | .sra _ _ _ => (0x81380000, 0xC1F80000)
  | .ldsb _ _ _ => (0xC0480000, 0xC1F80000)
  | .ldub _ _ _ => (0xC0080000, 0xC1F80000)
  | .ldsh _ _ _ => (0xC0500000, 0xC1F80000)
  | .lduh _ _ _ => (0xC0100000, 0xC1F80000)
  | .ld _ _ _ => (0xC0000000, 0xC1F80000)
  | .ldd _ _ _ => (0xC0180000, 0xC1F80000)
  | .stb _ _ _ => (0xC0280000, 0xC1F80000)
  | .sth _ _ _ => (0xC0300000, 0xC1F80000)
  | .st _ _ _ => (0xC0200000, 0xC1F80000)
  | .std _ _ _ => (0xC0380000, 0xC1F80000)
  | .ldstub _ _ _ => (0xC0680000, 0xC1F80000)
  | .swap _ _ _ => (0xC0780000, 0xC1F80000)
  | .jmpl _ _ _ => (0x81C00000, 0xC1F80000)
  | .rett _ _ => (0x81C80000, 0xC1F80000)
  | .ta _ _ => (0x91D00000, 0xDFF80000)
  | .tn _ _ => (0x81D00000, 0xDFF80000)
  | .tne _ _ => (0x93D00000, 0xDFF80000)
  | .te _ _ => (0x83D00000, 0xDFF80000)
  | .tg _ _ => (0x95D00000, 0xDFF80000)
  | .tle _ _ => (0x85D00000, 0xDFF80000)
  | .tge _ _ => (0x97D00000, 0xDFF80000)
  | .tl _ _ => (0x87D00000, 0xDFF80000)
  | .tgu _ _ => (0x99D00000, 0xDFF80000)
  | .tleu _ _ => (0x89D00000, 0xDFF80000)
  | .tcc _ _ => (0x9BD00000, 0xDFF80000)
  | .tcs _ _ => (0x8BD00000, 0xDFF80000)
  | .tpos _ _ => (0x9DD00000, 0xDFF80000)
  | .tneg _ _ => (0x8DD00000, 0xDFF80000)
  | .tvc _ _ => (0x9FD00000, 0xDFF80000)
  | .tvs _ _ => (0x8FD00000, 0xDFF80000)
  | .save _ _ _ => (0x81E00000, 0xC1F80000)
  | .restore _ _ _ => (0x81E80000, 0xC1F80000)
  | .rdpsr _ => (0x81480000, 0xC1F80000)
  | .rdwim _ => (0x81500000, 0xC1F80000)
  | .rdtbr _ => (0x81580000, 0xC1F80000)
  | .wrpsr _ _ => (0x81880000, 0xC1F80000)
  | .wrwim _ _ => (0x81900000, 0xC1F80000)
  | .wrtbr _ _ => (0x81980000, 0xC1F80000)
  | .rdy _ => (0x81400000, 0xC1FFC000)
  | .rdasr _ _ => (0x81400000, 0xC1F80000)
  | .wry _ _ => (0x81800000, 0xFFF80000)
  | .wrasr _ _ _ => (0x81800000, 0xC1F80000)

/-- The word of a well-formed instruction, under the default parameters, has its row's bits. -/
def Statement (i : Instr) : Prop :=
  i.wellFormed = true → encode .specDefault i &&& (row i).2 = (row i).1

/-- The identifying bits of format 3, for one op and op3. -/
theorem of_format3 {op : BitVec 2} {op3 : BitVec 6} {m : Word} (h : op ++ 0#5 ++ op3 ++ 0#5 ++ 0#1 ++ 0#13 = m)
    (rd rs1 : BitVec 5) (i : BitVec 1) (low : BitVec 13) :
    encodeFormat3 op rd op3 rs1 i low &&& 0xC1F80000 = m := (format3_and op rd op3 rs1 i low).trans h

/-- The identifying bits of a trap instruction, for one cond. -/
theorem of_ticc {cond : BitVec 4} {m : Word}
    (h : 2#2 ++ (0#1 ++ cond &&& 15#5) ++ 0b111010#6 ++ 0#5 ++ 0#1 ++ 0#13 = m) (rs1 : BitVec 5) (num : TrapNumber) :
    encodeTicc cond rs1 num &&& 0xDFF80000 = m := (format3_and_cond _ _ _ _ _ _).trans h

/-- The identifying bits of a branch, for one cond. -/
theorem of_bicc {cond : BitVec 4} {m : Word} (h : ∀ a, 0#2 ++ (BitVec.ofBool a ++ cond &&& 15#5) ++ 2#3 ++ 0#22 = m)
    (a : Bool) (disp22 : BitVec 22) : encodeBicc cond a disp22 &&& 0xDFC00000 = m :=
  (format2_and_cond _ _ _).trans (h a)

theorem unimp (reserved : BitVec 5) (const22 : BitVec 22) : Statement (.unimp reserved const22) := fun _ => (format2_and _ _ _).trans rfl

theorem nop : Statement (.nop) := fun _ => rfl

theorem sethi (rd : RegIdx) (imm22 : BitVec 22) : Statement (.sethi rd imm22) := fun _ => (format2_and _ _ _).trans rfl

theorem ba (a : Bool) (disp22 : BitVec 22) : Statement (.ba a disp22) := fun _ => of_bicc (fun b => by cases b <;> rfl) _ _

theorem bn (a : Bool) (disp22 : BitVec 22) : Statement (.bn a disp22) := fun _ => of_bicc (fun b => by cases b <;> rfl) _ _

theorem bne (a : Bool) (disp22 : BitVec 22) : Statement (.bne a disp22) := fun _ => of_bicc (fun b => by cases b <;> rfl) _ _

theorem be (a : Bool) (disp22 : BitVec 22) : Statement (.be a disp22) := fun _ => of_bicc (fun b => by cases b <;> rfl) _ _

theorem bg (a : Bool) (disp22 : BitVec 22) : Statement (.bg a disp22) := fun _ => of_bicc (fun b => by cases b <;> rfl) _ _

theorem ble (a : Bool) (disp22 : BitVec 22) : Statement (.ble a disp22) := fun _ => of_bicc (fun b => by cases b <;> rfl) _ _

theorem bge (a : Bool) (disp22 : BitVec 22) : Statement (.bge a disp22) := fun _ => of_bicc (fun b => by cases b <;> rfl) _ _

theorem bl (a : Bool) (disp22 : BitVec 22) : Statement (.bl a disp22) := fun _ => of_bicc (fun b => by cases b <;> rfl) _ _

theorem bgu (a : Bool) (disp22 : BitVec 22) : Statement (.bgu a disp22) := fun _ => of_bicc (fun b => by cases b <;> rfl) _ _

theorem bleu (a : Bool) (disp22 : BitVec 22) : Statement (.bleu a disp22) := fun _ => of_bicc (fun b => by cases b <;> rfl) _ _

theorem bcc (a : Bool) (disp22 : BitVec 22) : Statement (.bcc a disp22) := fun _ => of_bicc (fun b => by cases b <;> rfl) _ _

theorem bcs (a : Bool) (disp22 : BitVec 22) : Statement (.bcs a disp22) := fun _ => of_bicc (fun b => by cases b <;> rfl) _ _

theorem bpos (a : Bool) (disp22 : BitVec 22) : Statement (.bpos a disp22) := fun _ => of_bicc (fun b => by cases b <;> rfl) _ _

theorem bneg (a : Bool) (disp22 : BitVec 22) : Statement (.bneg a disp22) := fun _ => of_bicc (fun b => by cases b <;> rfl) _ _

theorem bvc (a : Bool) (disp22 : BitVec 22) : Statement (.bvc a disp22) := fun _ => of_bicc (fun b => by cases b <;> rfl) _ _

theorem bvs (a : Bool) (disp22 : BitVec 22) : Statement (.bvs a disp22) := fun _ => of_bicc (fun b => by cases b <;> rfl) _ _

theorem call (disp30 : BitVec 30) : Statement (.call disp30) := fun _ => (call_and _).trans rfl

theorem add (rd : RegIdx) (rs1 : RegIdx) (op2 : Operand2) : Statement (.add rd rs1 op2) := fun _ => of_format3 rfl _ _ _ _

theorem addcc (rd : RegIdx) (rs1 : RegIdx) (op2 : Operand2) : Statement (.addcc rd rs1 op2) := fun _ => of_format3 rfl _ _ _ _

theorem addx (rd : RegIdx) (rs1 : RegIdx) (op2 : Operand2) : Statement (.addx rd rs1 op2) := fun _ => of_format3 rfl _ _ _ _

theorem addxcc (rd : RegIdx) (rs1 : RegIdx) (op2 : Operand2) : Statement (.addxcc rd rs1 op2) := fun _ => of_format3 rfl _ _ _ _

theorem sub (rd : RegIdx) (rs1 : RegIdx) (op2 : Operand2) : Statement (.sub rd rs1 op2) := fun _ => of_format3 rfl _ _ _ _

theorem subcc (rd : RegIdx) (rs1 : RegIdx) (op2 : Operand2) : Statement (.subcc rd rs1 op2) := fun _ => of_format3 rfl _ _ _ _

theorem subx (rd : RegIdx) (rs1 : RegIdx) (op2 : Operand2) : Statement (.subx rd rs1 op2) := fun _ => of_format3 rfl _ _ _ _

theorem subxcc (rd : RegIdx) (rs1 : RegIdx) (op2 : Operand2) : Statement (.subxcc rd rs1 op2) := fun _ => of_format3 rfl _ _ _ _

theorem taddcc (rd : RegIdx) (rs1 : RegIdx) (op2 : Operand2) : Statement (.taddcc rd rs1 op2) := fun _ => of_format3 rfl _ _ _ _

theorem taddcctv (rd : RegIdx) (rs1 : RegIdx) (op2 : Operand2) : Statement (.taddcctv rd rs1 op2) := fun _ => of_format3 rfl _ _ _ _

theorem tsubcc (rd : RegIdx) (rs1 : RegIdx) (op2 : Operand2) : Statement (.tsubcc rd rs1 op2) := fun _ => of_format3 rfl _ _ _ _

theorem tsubcctv (rd : RegIdx) (rs1 : RegIdx) (op2 : Operand2) : Statement (.tsubcctv rd rs1 op2) := fun _ => of_format3 rfl _ _ _ _

theorem mulscc (rd : RegIdx) (rs1 : RegIdx) (op2 : Operand2) : Statement (.mulscc rd rs1 op2) := fun _ => of_format3 rfl _ _ _ _

theorem umul (rd : RegIdx) (rs1 : RegIdx) (op2 : Operand2) : Statement (.umul rd rs1 op2) := fun _ => of_format3 rfl _ _ _ _

theorem umulcc (rd : RegIdx) (rs1 : RegIdx) (op2 : Operand2) : Statement (.umulcc rd rs1 op2) := fun _ => of_format3 rfl _ _ _ _

theorem smul (rd : RegIdx) (rs1 : RegIdx) (op2 : Operand2) : Statement (.smul rd rs1 op2) := fun _ => of_format3 rfl _ _ _ _

theorem smulcc (rd : RegIdx) (rs1 : RegIdx) (op2 : Operand2) : Statement (.smulcc rd rs1 op2) := fun _ => of_format3 rfl _ _ _ _

theorem udiv (rd : RegIdx) (rs1 : RegIdx) (op2 : Operand2) : Statement (.udiv rd rs1 op2) := fun _ => of_format3 rfl _ _ _ _

theorem udivcc (rd : RegIdx) (rs1 : RegIdx) (op2 : Operand2) : Statement (.udivcc rd rs1 op2) := fun _ => of_format3 rfl _ _ _ _

theorem sdiv (rd : RegIdx) (rs1 : RegIdx) (op2 : Operand2) : Statement (.sdiv rd rs1 op2) := fun _ => of_format3 rfl _ _ _ _

theorem sdivcc (rd : RegIdx) (rs1 : RegIdx) (op2 : Operand2) : Statement (.sdivcc rd rs1 op2) := fun _ => of_format3 rfl _ _ _ _

theorem and (rd : RegIdx) (rs1 : RegIdx) (op2 : Operand2) : Statement (.and rd rs1 op2) := fun _ => of_format3 rfl _ _ _ _

theorem andcc (rd : RegIdx) (rs1 : RegIdx) (op2 : Operand2) : Statement (.andcc rd rs1 op2) := fun _ => of_format3 rfl _ _ _ _

theorem or (rd : RegIdx) (rs1 : RegIdx) (op2 : Operand2) : Statement (.or rd rs1 op2) := fun _ => of_format3 rfl _ _ _ _

theorem orcc (rd : RegIdx) (rs1 : RegIdx) (op2 : Operand2) : Statement (.orcc rd rs1 op2) := fun _ => of_format3 rfl _ _ _ _

theorem xor (rd : RegIdx) (rs1 : RegIdx) (op2 : Operand2) : Statement (.xor rd rs1 op2) := fun _ => of_format3 rfl _ _ _ _

theorem xorcc (rd : RegIdx) (rs1 : RegIdx) (op2 : Operand2) : Statement (.xorcc rd rs1 op2) := fun _ => of_format3 rfl _ _ _ _

theorem andn (rd : RegIdx) (rs1 : RegIdx) (op2 : Operand2) : Statement (.andn rd rs1 op2) := fun _ => of_format3 rfl _ _ _ _

theorem andncc (rd : RegIdx) (rs1 : RegIdx) (op2 : Operand2) : Statement (.andncc rd rs1 op2) := fun _ => of_format3 rfl _ _ _ _

theorem orn (rd : RegIdx) (rs1 : RegIdx) (op2 : Operand2) : Statement (.orn rd rs1 op2) := fun _ => of_format3 rfl _ _ _ _

theorem orncc (rd : RegIdx) (rs1 : RegIdx) (op2 : Operand2) : Statement (.orncc rd rs1 op2) := fun _ => of_format3 rfl _ _ _ _

theorem xnor (rd : RegIdx) (rs1 : RegIdx) (op2 : Operand2) : Statement (.xnor rd rs1 op2) := fun _ => of_format3 rfl _ _ _ _

theorem xnorcc (rd : RegIdx) (rs1 : RegIdx) (op2 : Operand2) : Statement (.xnorcc rd rs1 op2) := fun _ => of_format3 rfl _ _ _ _

theorem sll (rd : RegIdx) (rs1 : RegIdx) (cnt : ShiftCount) : Statement (.sll rd rs1 cnt) := fun _ => of_format3 rfl _ _ _ _

theorem srl (rd : RegIdx) (rs1 : RegIdx) (cnt : ShiftCount) : Statement (.srl rd rs1 cnt) := fun _ => of_format3 rfl _ _ _ _

theorem sra (rd : RegIdx) (rs1 : RegIdx) (cnt : ShiftCount) : Statement (.sra rd rs1 cnt) := fun _ => of_format3 rfl _ _ _ _

theorem ldsb (rd : RegIdx) (rs1 : RegIdx) (op2 : Operand2) : Statement (.ldsb rd rs1 op2) := fun _ => of_format3 rfl _ _ _ _

theorem ldub (rd : RegIdx) (rs1 : RegIdx) (op2 : Operand2) : Statement (.ldub rd rs1 op2) := fun _ => of_format3 rfl _ _ _ _

theorem ldsh (rd : RegIdx) (rs1 : RegIdx) (op2 : Operand2) : Statement (.ldsh rd rs1 op2) := fun _ => of_format3 rfl _ _ _ _

theorem lduh (rd : RegIdx) (rs1 : RegIdx) (op2 : Operand2) : Statement (.lduh rd rs1 op2) := fun _ => of_format3 rfl _ _ _ _

theorem ld (rd : RegIdx) (rs1 : RegIdx) (op2 : Operand2) : Statement (.ld rd rs1 op2) := fun _ => of_format3 rfl _ _ _ _

theorem ldd (rd : RegIdx) (rs1 : RegIdx) (op2 : Operand2) : Statement (.ldd rd rs1 op2) := fun _ => of_format3 rfl _ _ _ _

theorem stb (rd : RegIdx) (rs1 : RegIdx) (op2 : Operand2) : Statement (.stb rd rs1 op2) := fun _ => of_format3 rfl _ _ _ _

theorem sth (rd : RegIdx) (rs1 : RegIdx) (op2 : Operand2) : Statement (.sth rd rs1 op2) := fun _ => of_format3 rfl _ _ _ _

theorem st (rd : RegIdx) (rs1 : RegIdx) (op2 : Operand2) : Statement (.st rd rs1 op2) := fun _ => of_format3 rfl _ _ _ _

theorem std (rd : RegIdx) (rs1 : RegIdx) (op2 : Operand2) : Statement (.std rd rs1 op2) := fun _ => of_format3 rfl _ _ _ _

theorem ldstub (rd : RegIdx) (rs1 : RegIdx) (op2 : Operand2) : Statement (.ldstub rd rs1 op2) := fun _ => of_format3 rfl _ _ _ _

theorem swap (rd : RegIdx) (rs1 : RegIdx) (op2 : Operand2) : Statement (.swap rd rs1 op2) := fun _ => of_format3 rfl _ _ _ _

theorem jmpl (rd : RegIdx) (rs1 : RegIdx) (op2 : Operand2) : Statement (.jmpl rd rs1 op2) := fun _ => of_format3 rfl _ _ _ _

theorem rett (rs1 : RegIdx) (op2 : Operand2) : Statement (.rett rs1 op2) := fun _ => of_format3 rfl _ _ _ _

theorem ta (rs1 : RegIdx) (num : TrapNumber) : Statement (.ta rs1 num) := fun _ => of_ticc rfl _ _

theorem tn (rs1 : RegIdx) (num : TrapNumber) : Statement (.tn rs1 num) := fun _ => of_ticc rfl _ _

theorem tne (rs1 : RegIdx) (num : TrapNumber) : Statement (.tne rs1 num) := fun _ => of_ticc rfl _ _

theorem te (rs1 : RegIdx) (num : TrapNumber) : Statement (.te rs1 num) := fun _ => of_ticc rfl _ _

theorem tg (rs1 : RegIdx) (num : TrapNumber) : Statement (.tg rs1 num) := fun _ => of_ticc rfl _ _

theorem tle (rs1 : RegIdx) (num : TrapNumber) : Statement (.tle rs1 num) := fun _ => of_ticc rfl _ _

theorem tge (rs1 : RegIdx) (num : TrapNumber) : Statement (.tge rs1 num) := fun _ => of_ticc rfl _ _

theorem tl (rs1 : RegIdx) (num : TrapNumber) : Statement (.tl rs1 num) := fun _ => of_ticc rfl _ _

theorem tgu (rs1 : RegIdx) (num : TrapNumber) : Statement (.tgu rs1 num) := fun _ => of_ticc rfl _ _

theorem tleu (rs1 : RegIdx) (num : TrapNumber) : Statement (.tleu rs1 num) := fun _ => of_ticc rfl _ _

theorem tcc (rs1 : RegIdx) (num : TrapNumber) : Statement (.tcc rs1 num) := fun _ => of_ticc rfl _ _

theorem tcs (rs1 : RegIdx) (num : TrapNumber) : Statement (.tcs rs1 num) := fun _ => of_ticc rfl _ _

theorem tpos (rs1 : RegIdx) (num : TrapNumber) : Statement (.tpos rs1 num) := fun _ => of_ticc rfl _ _

theorem tneg (rs1 : RegIdx) (num : TrapNumber) : Statement (.tneg rs1 num) := fun _ => of_ticc rfl _ _

theorem tvc (rs1 : RegIdx) (num : TrapNumber) : Statement (.tvc rs1 num) := fun _ => of_ticc rfl _ _

theorem tvs (rs1 : RegIdx) (num : TrapNumber) : Statement (.tvs rs1 num) := fun _ => of_ticc rfl _ _

theorem save (rd : RegIdx) (rs1 : RegIdx) (op2 : Operand2) : Statement (.save rd rs1 op2) := fun _ => of_format3 rfl _ _ _ _

theorem restore (rd : RegIdx) (rs1 : RegIdx) (op2 : Operand2) : Statement (.restore rd rs1 op2) := fun _ => of_format3 rfl _ _ _ _

theorem rdpsr (rd : RegIdx) : Statement (.rdpsr rd) := fun _ => of_format3 rfl _ _ _ _

theorem rdwim (rd : RegIdx) : Statement (.rdwim rd) := fun _ => of_format3 rfl _ _ _ _

theorem rdtbr (rd : RegIdx) : Statement (.rdtbr rd) := fun _ => of_format3 rfl _ _ _ _

theorem wrpsr (rs1 : RegIdx) (op2 : Operand2) : Statement (.wrpsr rs1 op2) := fun _ => of_format3 rfl _ _ _ _

theorem wrwim (rs1 : RegIdx) (op2 : Operand2) : Statement (.wrwim rs1 op2) := fun _ => of_format3 rfl _ _ _ _

theorem wrtbr (rs1 : RegIdx) (op2 : Operand2) : Statement (.wrtbr rs1 op2) := fun _ => of_format3 rfl _ _ _ _

theorem rdy (rd : RegIdx) : Statement (.rdy rd) := fun _ => (format3_and_rs1 _ _ _ _ _ _).trans rfl

theorem rdasr (rd : RegIdx) (asr : RegIdx) : Statement (.rdasr rd asr) := fun _ => of_format3 rfl _ _ _ _

theorem wry (rs1 : RegIdx) (op2 : Operand2) : Statement (.wry rs1 op2) := fun _ => (format3_and_rd _ _ _ _ _ _).trans rfl

theorem wrasr (asr : RegIdx) (rs1 : RegIdx) (op2 : Operand2) : Statement (.wrasr asr rs1 op2) := fun _ => of_format3 rfl _ _ _ _

end Sys2Proof.Laws.EncodingMatchesTableRow
end

