-- ==== Sys2Proof/Tests/Slice0.lean ====
section
/-! SUPPORT. The model's own tests: the checks of `WellFormed`, the decoding of words the spec writes out, one or two steps
of each instruction with the results of the spec's examples and vectors, and states that meet the hypotheses of the
statements. -/

namespace Sys2Proof.Tests

open Sys2Proof Sys2Proof.Machine

/-! ## WellFormed -/

/-- `sethi 0, %r0` is the row NOP (41_logical_shift_sethi.md rule R191). -/
theorem test_wellFormed_refuses_sethi_nop : Instr.wellFormed (.sethi 0 0) = false := by decide

/-- Register 0 of RDASR's field is Y (46_state_register.md rule R308). -/
theorem test_wellFormed_refuses_rdasr_zero : Instr.wellFormed (.rdasr 3 0) = false := by decide

/-- Register 0 of WRASR's field is Y (46_state_register.md rule R310). -/
theorem test_wellFormed_refuses_wrasr_zero : Instr.wellFormed (.wrasr 0 1 (.reg 2)) = false := by decide

/-- The neighbours of the refused terms. -/
theorem test_wellFormed_accepts_neighbours :
    Instr.wellFormed (.sethi 0 1) = true ∧ Instr.wellFormed (.sethi 1 0) = true ∧ Instr.wellFormed (.rdasr 0 1) = true ∧
      Instr.wellFormed (.wrasr 31 0 (.imm 0)) = true := by decide

/-! ## Decoding words the spec writes out -/

/-- Each word, numbered as the opcode table numbers it, decodes to the instruction beside it. -/
def decodes (l : List (Nat × Instr)) : Bool := l.all fun p => decodeTableWord 32 p.1 == some p.2

/-- 40_arithmetic.md rules R133 to R140. -/
theorem test_decode_add_subtract :
    decodes
      [(0x86004002, .add 3 1 (.reg 2)),
        (0x86804002, .addcc 3 1 (.reg 2)),
        (0x86407FFF, .addx 3 1 (.imm (-1))),
        (0x86C04000, .addxcc 3 1 (.reg 0)),
        (0x86206001, .sub 3 1 (.imm 1)),
        (0x86A0E001, .subcc 3 3 (.imm 1)),
        (0x86604002, .subx 3 1 (.reg 2)),
        (0x86E04002, .subxcc 3 1 (.reg 2))] = true := by decide

/-- 40_arithmetic.md rules R142 to R145 and R147. -/
theorem test_decode_tagged :
    decodes
      [(0x87004002, .taddcc 3 1 (.reg 2)),
        (0x87104002, .taddcctv 3 1 (.reg 2)),
        (0x87084002, .tsubcc 3 1 (.reg 2)),
        (0x87184002, .tsubcctv 3 1 (.reg 2)),
        (0x87204002, .mulscc 3 1 (.reg 2))] = true := by decide

/-- 40_arithmetic.md rules R148 to R155. -/
theorem test_decode_multiply_divide :
    decodes
      [(0x86504002, .umul 3 1 (.reg 2)),
        (0x86D04002, .umulcc 3 1 (.reg 2)),
        (0x86484002, .smul 3 1 (.reg 2)),
        (0x86C84002, .smulcc 3 1 (.reg 2)),
        (0x86704002, .udiv 3 1 (.reg 2)),
        (0x86F04002, .udivcc 3 1 (.reg 2)),
        (0x86784002, .sdiv 3 1 (.reg 2)),
        (0x86F84002, .sdivcc 3 1 (.reg 2))] = true := by decide

/-- 41_logical_shift_sethi.md rules R171 to R182. -/
theorem test_decode_logical :
    decodes
      [(0x86084002, .and 3 1 (.reg 2)),
        (0x86884002, .andcc 3 1 (.reg 2)),
        (0x82102028, .or 1 0 (.imm 40)),
        (0x86904002, .orcc 3 1 (.reg 2)),
        (0x86184002, .xor 3 1 (.reg 2)),
        (0x86984001, .xorcc 3 1 (.reg 1)),
        (0x86284002, .andn 3 1 (.reg 2)),
        (0x86A84002, .andncc 3 1 (.reg 2)),
        (0x86304002, .orn 3 1 (.reg 2)),
        (0x86B00000, .orncc 3 0 (.reg 0)),
        (0x86384002, .xnor 3 1 (.reg 2)),
        (0x86B84001, .xnorcc 3 1 (.reg 1))] = true := by decide

/-- 41_logical_shift_sethi.md rules R185 to R191, 30_encoding.md rule R121. -/
theorem test_decode_shift_sethi_nop_unimp :
    decodes
      [(0x87284002, .sll 3 1 (.reg 2)),
        (0x87286001, .sll 3 1 (.imm 1)),
        (0x8730601F, .srl 3 1 (.imm 31)),
        (0x87386004, .sra 3 1 (.imm 4)),
        (0x3100202A, .sethi 24 8234),
        (0x193C3C3C, .sethi 12 0b1111000011110000111100),
        (0x01000000, .nop),
        (0x03000000, .sethi 1 0),
        (0x00000000, .unimp 0 0),
        (0x06000312, .unimp 3 0x312)] = true := by decide

/-- 42_load_store.md rules R202 to R219. -/
theorem test_decode_load_store :
    decodes
      [(0xC8486002, .ldsb 4 1 (.imm 2)),
        (0xC4084000, .ldub 2 1 (.reg 0)),
        (0xC8506002, .ldsh 4 1 (.imm 2)),
        (0xC8106001, .lduh 4 1 (.imm 1)),
        (0xC8004002, .ld 4 1 (.reg 2)),
        (0xCA186000, .ldd 5 1 (.imm 0)),
        (0xCA286003, .stb 5 1 (.imm 3)),
        (0xC8306002, .sth 4 1 (.imm 2)),
        (0xC8207FFC, .st 4 1 (.imm (-4))),
        (0xC8386000, .std 4 1 (.imm 0)),
        (0xC8686003, .ldstub 4 1 (.imm 3)),
        (0xC8786004, .swap 4 1 (.imm 4))] = true := by decide

/-- 43_branch.md rules R241 to R256 (`.+8`), and the source's `bne Loop` and `bl,a PC-16`. -/
theorem test_decode_branch :
    decodes
      [(0x10800002, .ba false 2),
        (0x30800002, .ba true 2),
        (0x00800002, .bn false 2),
        (0x20800002, .bn true 2),
        (0x12BFFFFE, .bne false (-2)),
        (0x02800004, .be false 4),
        (0x22800004, .be true 4),
        (0x14800002, .bg false 2),
        (0x04800002, .ble false 2),
        (0x16800002, .bge false 2),
        (0x06800002, .bl false 2),
        (0x26BFFFFC, .bl true (-4)),
        (0x18800002, .bgu false 2),
        (0x08800002, .bleu false 2),
        (0x1A800002, .bcc false 2),
        (0x0A800002, .bcs false 2),
        (0x1C800002, .bpos false 2),
        (0x0C800002, .bneg false 2),
        (0x1E800002, .bvc false 2),
        (0x0E800002, .bvs false 2)] = true := by decide

/-- 44_subroutine.md rules R261 to R269. -/
theorem test_decode_subroutine :
    decodes
      [(0x40000010, .call 16),
        (0x7FFFFFFC, .call (-4)),
        (0x9FC04002, .jmpl 15 1 (.reg 2)),
        (0x8FC0E010, .jmpl 7 3 (.imm 16)),
        (0x83E10005, .save 1 4 (.reg 5)),
        (0x9DE3BFA0, .save 14 14 (.imm (-96))),
        (0xB9E93FE2, .restore 28 4 (.imm (-30))),
        (0x81E80000, .restore 0 0 (.reg 0))] = true := by decide

/-- 45_trap_instructions.md rules R281 to R299. -/
theorem test_decode_trap :
    decodes
      [(0x91D02010, .ta 0 (.imm 16)),
        (0x81D02010, .tn 0 (.imm 16)),
        (0x93D02010, .tne 0 (.imm 16)),
        (0x83D02010, .te 0 (.imm 16)),
        (0x95D02010, .tg 0 (.imm 16)),
        (0x85D02010, .tle 0 (.imm 16)),
        (0x97D02010, .tge 0 (.imm 16)),
        (0x87D02010, .tl 0 (.imm 16)),
        (0x99D02010, .tgu 0 (.imm 16)),
        (0x89D02010, .tleu 0 (.imm 16)),
        (0x9BD02010, .tcc 0 (.imm 16)),
        (0x8BD02010, .tcs 0 (.imm 16)),
        (0x9DD02010, .tpos 0 (.imm 16)),
        (0x8DD02010, .tneg 0 (.imm 16)),
        (0x9FD02010, .tvc 0 (.imm 16)),
        (0x8FD02010, .tvs 0 (.imm 16)),
        (0x91D04002, .ta 1 (.reg 2)),
        (0x83D0E005, .te 3 (.imm 5)),
        (0x81CCA004, .rett 18 (.imm 4)),
        (0x81CC8000, .rett 18 (.reg 0))] = true := by decide

/-- 46_state_register.md rules R301 to R311. -/
theorem test_decode_state_register :
    decodes
      [(0xAF480000, .rdpsr 23),
        (0xA7500000, .rdwim 19),
        (0x87580000, .rdtbr 3),
        (0x81894011, .wrpsr 5 (.reg 17)),
        (0x81942037, .wrwim 16 (.imm 55)),
        (0x8199001E, .wrtbr 4 (.reg 30)),
        (0x83400000, .rdy 1),
        (0x85444000, .rdasr 2 17),
        (0x8143C000, .rdasr 0 15),
        (0x81802005, .wry 0 (.imm 5)),
        (0xA3804002, .wrasr 17 1 (.reg 2)),
        (0xAF4FFFFF, .rdpsr 23)] = true := by decide

/-- 95_test_vectors.md section 2.10 under RESERVED_POLICY = refuse: words that are no instruction. -/
theorem test_decode_outside_the_table :
    [0x00400000, 0x00C00000, 0x01400000, 0x81680000, 0x86684002, 0x86584002, 0xC0400000].all
        (fun w => decode .specDefault w == .illegal) = true ∧
      decode .specDefault 0x01800000 = .fpDisabled ∧ decode .specDefault 0x01C00000 = .cpDisabled ∧
      decode .specDefault 0x81A00000 = .fpDisabled ∧ decode .specDefault 0xC1000000 = .fpDisabled ∧
      decode .specDefault 0x81D80000 = .rejected .flush ∧ decode .specDefault 0xC0800000 = .rejected .alternateSpace ∧
      [0x86004022, 0xB1D02048, 0x91D020C8, 0xC4084142].all
        (fun w => decode .specDefault w == .rejected .reservedField) = true := by decide

/-- The defaults with RESERVED_POLICY = ignore and the published op3 of SMUL. -/
def otherPolicy : Config := { Config.specDefault with reservedPolicy := .ignore, smulOp3 := .published }

/-- The same section under RESERVED_POLICY = ignore and SMUL_OP3 = 001011. -/
theorem test_decode_other_policy :
    decode otherPolicy 0x86004022 = .instr (.add 3 1 (.reg 2)) ∧
      decode otherPolicy 0xB1D02048 = .instr (.ta 0 (.imm 72)) ∧
      decode otherPolicy 0x91D020C8 = .instr (.ta 0 (.imm 72)) ∧
      decode otherPolicy 0xC4084142 = .instr (.ldub 2 1 (.reg 2)) ∧
      decode otherPolicy 0x86584002 = .instr (.smul 3 1 (.reg 2)) ∧ decode otherPolicy 0x86484002 = .illegal := by decide

/-! ## Small states, and what a result says -/

/-- icc from the four bits NZVC. -/
def flag (nzvc : BitVec 4) : Icc := ⟨nzvc.getLsbD 3, nzvc.getLsbD 2, nzvc.getLsbD 1, nzvc.getLsbD 0⟩

/-- Supervisor mode with traps enabled, at PC = 0x100, window 0, TBA = 0x00040. -/
def base : State :=
  { State.reset with
    psr := { State.reset.psr with et := true }
    pc := 0x100
    npc := 0x104
    tbr := ⟨0x00040, 0⟩ }

/-- The same with x[1], x[2], icc and Y. -/
def two (a b : Word) (nzvc : BitVec 4) (y : Word) : State :=
  { (base.writeReg 1 a).writeReg 2 b with psr := { base.psr with icc := flag nzvc }, y := y }

/-- The start of 95_test_vectors.md section 2.3. -/
def data : State :=
  ({ ((((base.storeWord 0x100 0x80FF7F01).storeWord 0x104 0xCAFEBABE).writeReg 1 0x100).writeReg 2 4) with
    storedTo := [] }.writeReg 4 0x11223344).writeReg 5 0x55667788

/-- A machine at a window and mode with icc. -/
def inWindow (cwp : BitVec 5) (wim : Word) (nzvc : BitVec 4) (sup : Bool) : State :=
  { base with psr := { base.psr with cwp := cwp, s := sup, icc := flag nzvc }, wim := wim, pc := 0x2000, npc := 0x2004 }

/-- What a result leaves in x[3], icc and Y. -/
def computed (r : Result) : Option (Word × Icc × Word) :=
  match r with
  | .next t => some (t.readReg 3, t.psr.icc, t.y)
  | _ => none

/-- What a result leaves in a register. -/
def regOf (i : RegIdx) (r : Result) : Option Word :=
  match r with
  | .next t => some (t.readReg i)
  | _ => none

/-- What a result leaves in x[4], x[5] and the words at 0x100 and 0x104. -/
def memoryOf (r : Result) : Option (Word × Word × Word × Word) :=
  match r with
  | .next t => some (t.readReg 4, t.readReg 5, t.readWord 0x100, t.readWord 0x104)
  | _ => none

/-- PC and nPC after a result. -/
def flow (r : Result) : Option (Word × Word) :=
  match r with
  | .next t => some (t.pc, t.npc)
  | _ => none

/-- What a trap handler sees. -/
structure Taken where
  pc : Word
  cwp : BitVec 5
  s : Bool
  ps : Bool
  et : Bool
  r17 : Word
  r18 : Word
  deriving DecidableEq, Repr

/-- What a result leaves for a trap handler. -/
def trapOfResult (r : Result) : Option Taken :=
  match r with
  | .next t => some ⟨t.pc, t.psr.cwp, t.psr.s, t.psr.ps, t.psr.et, t.readReg 17, t.readReg 18⟩
  | _ => none

/-- Whether a result is error mode. -/
def inError (r : Result) : Bool :=
  match r with
  | .next t => t.errorMode
  | _ => false

/-- PSR, WIM, TBR and Y after a result, as words. -/
def specials (r : Result) : Option (Word × Word × Word × Word) :=
  match r with
  | .next t => some (t.psrWord, t.wimWord, t.tbr.toWord, t.y)
  | _ => none

/-- Whether a result is a next state. -/
def goesOn (r : Result) : Bool :=
  match r with
  | .next _ => true
  | _ => false

theorem exists_of_goesOn {r : Result} (h : goesOn r = true) : ∃ t, r = .next t := by
  cases r with
  | next t => exact ⟨t, rfl⟩
  | fault r => cases h
  | refused r => cases h

/-! ## Arithmetic (95_test_vectors.md section 2.1) -/

theorem test_add_wraps :
    computed (exec (.add 3 1 (.reg 2)) (two 0xFFFFFFFF 1 0b1111 0)) = some (0, flag 0b1111, 0) := by decide

theorem test_add_immediate :
    computed (exec (.add 3 1 (.imm (-1))) (two 5 0 0b0000 0)) = some (4, flag 0b0000, 0) := by decide

theorem test_addcc_overflow :
    computed (exec (.addcc 3 1 (.reg 2)) (two 0x7FFFFFFF 0x7FFFFFFF 0b0000 0)) = some (0xFFFFFFFE, flag 0b1010, 0) := by decide

theorem test_addcc_carry :
    computed (exec (.addcc 3 1 (.reg 2)) (two 0x80000000 0x80000000 0b0000 0)) = some (0, flag 0b0111, 0) := by decide

theorem test_addx_carry :
    computed (exec (.addx 3 1 (.reg 2)) (two 0xFFFFFFFF 0xFFFFFFFF 0b0001 0)) = some (0xFFFFFFFF, flag 0b0001, 0) := by decide

theorem test_addxcc_carry :
    computed (exec (.addxcc 3 1 (.reg 2)) (two 0xFFFFFFFF 0 0b0001 0)) = some (0, flag 0b0101, 0) := by decide

theorem test_addxcc_overflow :
    computed (exec (.addxcc 3 1 (.reg 2)) (two 0x7FFFFFFF 0 0b0001 0)) = some (0x80000000, flag 0b1010, 0) := by decide

theorem test_sub_wraps :
    computed (exec (.sub 3 1 (.reg 2)) (two 0 1 0b0000 0)) = some (0xFFFFFFFF, flag 0b0000, 0) := by decide

theorem test_subcc_overflow :
    computed (exec (.subcc 3 1 (.reg 2)) (two 0x7FFFFFFF 0xFFFFFFFF 0b0000 0)) = some (0x80000000, flag 0b1011, 0) := by decide

theorem test_subcc_borrow :
    computed (exec (.subcc 3 1 (.reg 2)) (two 3 5 0b0000 0)) = some (0xFFFFFFFE, flag 0b1001, 0) := by decide

theorem test_subx_borrow :
    computed (exec (.subx 3 1 (.reg 2)) (two 5 2 0b0001 0)) = some (2, flag 0b0001, 0) := by decide

theorem test_subxcc_borrow :
    computed (exec (.subxcc 3 1 (.reg 2)) (two 0 0xFFFFFFFF 0b0001 0)) = some (0, flag 0b0101, 0) := by decide

theorem test_subxcc_overflow :
    computed (exec (.subxcc 3 1 (.reg 2)) (two 0x80000000 0 0b0001 0)) = some (0x7FFFFFFF, flag 0b0010, 0) := by decide

theorem test_taddcc_tag :
    computed (exec (.taddcc 3 1 (.reg 2)) (two 4 9 0b0000 0)) = some (0xD, flag 0b0010, 0) := by decide

theorem test_taddcc_overflow :
    computed (exec (.taddcc 3 1 (.reg 2)) (two 0x7FFFFFFC 4 0b0000 0)) = some (0x80000000, flag 0b1010, 0) := by decide

theorem test_taddcctv_completes :
    computed (exec (.taddcctv 3 1 (.reg 2)) (two 4 8 0b0010 0)) = some (0xC, flag 0b0000, 0) := by decide

theorem test_taddcctv_traps :
    trapOfResult (exec (.taddcctv 3 1 (.reg 2)) (two 5 8 0b1001 0)) =
      some ⟨0x400A0, 7, true, true, false, 0x100, 0x104⟩ := by decide

theorem test_tsubcc_tag :
    computed (exec (.tsubcc 3 1 (.reg 2)) (two 0xC 3 0b0000 0)) = some (9, flag 0b0010, 0) := by decide

theorem test_tsubcc_borrow :
    computed (exec (.tsubcc 3 1 (.reg 2)) (two 4 8 0b0000 0)) = some (0xFFFFFFFC, flag 0b1001, 0) := by decide

theorem test_tsubcctv_completes :
    computed (exec (.tsubcctv 3 1 (.reg 2)) (two 0xC 4 0b0010 0)) = some (8, flag 0b0000, 0) := by decide

theorem test_tsubcctv_traps :
    trapOfResult (exec (.tsubcctv 3 1 (.reg 2)) (two 0x80000000 4 0b0000 0)) =
      some ⟨0x400A0, 7, true, true, false, 0x100, 0x104⟩ := by decide

theorem test_mulscc_sign :
    computed (exec (.mulscc 3 1 (.reg 2)) (two 7 5 0b1000 1)) = some (0x80000008, flag 0b1000, 0x80000000) := by decide

theorem test_mulscc_carry :
    computed (exec (.mulscc 3 1 (.reg 2)) (two 0xFFFFFFFF 1 0b0010 1)) = some (0, flag 0b0101, 0x80000000) := by decide

theorem test_umul_high :
    computed (exec (.umul 3 1 (.reg 2)) (two 0xFFFFFFFF 0xFFFFFFFF 0b0000 0x55)) = some (1, flag 0b0000, 0xFFFFFFFE) := by decide

theorem test_umulcc_zero_low :
    computed (exec (.umulcc 3 1 (.reg 2)) (two 0x80000000 4 0b0011 0)) = some (0, flag 0b0100, 2) := by decide

theorem test_umulcc_negative :
    computed (exec (.umulcc 3 1 (.reg 2)) (two 0x8000 0x10000 0b0000 0)) = some (0x80000000, flag 0b1000, 0) := by decide

theorem test_smul_negative :
    computed (exec (.smul 3 1 (.reg 2)) (two 0xFFFFFFFF 1 0b0000 0)) = some (0xFFFFFFFF, flag 0b0000, 0xFFFFFFFF) := by decide

theorem test_smul_square :
    computed (exec (.smul 3 1 (.reg 2)) (two 0x80000000 0x80000000 0b0000 0)) = some (0, flag 0b0000, 0x40000000) := by decide

theorem test_smulcc_negative :
    computed (exec (.smulcc 3 1 (.reg 2)) (two 0xFFFFFFFE 3 0b0011 0)) = some (0xFFFFFFFA, flag 0b1000, 0xFFFFFFFF) := by decide

theorem test_smulcc_zero_low :
    computed (exec (.smulcc 3 1 (.reg 2)) (two 0x80000000 2 0b0000 0)) = some (0, flag 0b0100, 0xFFFFFFFF) := by decide

theorem test_udiv_largest :
    computed (exec (.udiv 3 1 (.reg 2)) (two 0xFFFFFFFF 0xFFFFFFFF 0b0000 0xFFFFFFFE)) = some (0xFFFFFFFF, flag 0b0000, 0xFFFFFFFE) := by decide

theorem test_udiv_by_zero :
    trapOfResult (exec (.udiv 3 1 (.reg 2)) (two 5 0 0b0000 0)) =
      some ⟨0x402A0, 7, true, true, false, 0x100, 0x104⟩ := by decide

theorem test_udivcc_overflow :
    computed (exec (.udivcc 3 1 (.reg 2)) (two 0 1 0b0000 1)) = some (0xFFFFFFFF, flag 0b1010, 1) := by decide

theorem test_udivcc_zero :
    computed (exec (.udivcc 3 1 (.reg 2)) (two 3 4 0b1011 0)) = some (0, flag 0b0100, 0) := by decide

theorem test_sdiv_toward_zero :
    computed (exec (.sdiv 3 1 (.reg 2)) (two 0xFFFFFFF9 2 0b0000 0xFFFFFFFF)) = some (0xFFFFFFFD, flag 0b0000, 0xFFFFFFFF) := by decide

theorem test_sdiv_overflow :
    computed (exec (.sdiv 3 1 (.reg 2)) (two 0x80000000 0xFFFFFFFF 0b0000 0xFFFFFFFF)) = some (0x7FFFFFFF, flag 0b0000, 0xFFFFFFFF) := by decide

theorem test_sdivcc_overflow :
    computed (exec (.sdivcc 3 1 (.reg 2)) (two 0x80000000 0xFFFFFFFF 0b0000 0xFFFFFFFF)) = some (0x7FFFFFFF, flag 0b0010, 0xFFFFFFFF) := by decide

theorem test_sdivcc_negative_overflow :
    computed (exec (.sdivcc 3 1 (.reg 2)) (two 0 1 0b0000 0x80000000)) = some (0x80000000, flag 0b1010, 0x80000000) := by decide

/-! ## Logical, shift, SETHI, NOP (95_test_vectors.md section 2.2, 41_logical_shift_sethi.md) -/

theorem test_and_vector :
    computed (exec (.and 3 1 (.reg 2)) (two 0xF0F0A5A5 0xFF00FF00 0b0011 0)) = some (0xF000A500, flag 0b0011, 0) := by decide

theorem test_andcc_vector :
    computed (exec (.andcc 3 1 (.reg 2)) (two 0xF0F0A5A5 0xFF00FF00 0b0011 0)) = some (0xF000A500, flag 0b1000, 0) := by decide

theorem test_or_vector :
    computed (exec (.or 3 1 (.reg 2)) (two 0xF0F0A5A5 0xFF00FF00 0b0011 0)) = some (0xFFF0FFA5, flag 0b0011, 0) := by decide

theorem test_orcc_vector :
    computed (exec (.orcc 3 1 (.reg 2)) (two 0xF0F0A5A5 0xFF00FF00 0b0011 0)) = some (0xFFF0FFA5, flag 0b1000, 0) := by decide

theorem test_xor_vector :
    computed (exec (.xor 3 1 (.reg 2)) (two 0xF0F0A5A5 0xFF00FF00 0b0011 0)) = some (0xFF05AA5, flag 0b0011, 0) := by decide

theorem test_xorcc_vector :
    computed (exec (.xorcc 3 1 (.reg 2)) (two 0xF0F0A5A5 0xFF00FF00 0b0011 0)) = some (0xFF05AA5, flag 0b0000, 0) := by decide

theorem test_andn_vector :
    computed (exec (.andn 3 1 (.reg 2)) (two 0xF0F0A5A5 0xFF00FF00 0b0011 0)) = some (0xF000A5, flag 0b0011, 0) := by decide

theorem test_andncc_vector :
    computed (exec (.andncc 3 1 (.reg 2)) (two 0xF0F0A5A5 0xFF00FF00 0b0011 0)) = some (0xF000A5, flag 0b0000, 0) := by decide

theorem test_orn_vector :
    computed (exec (.orn 3 1 (.reg 2)) (two 0xF0F0A5A5 0xFF00FF00 0b0011 0)) = some (0xF0FFA5FF, flag 0b0011, 0) := by decide

theorem test_orncc_vector :
    computed (exec (.orncc 3 1 (.reg 2)) (two 0xF0F0A5A5 0xFF00FF00 0b0011 0)) = some (0xF0FFA5FF, flag 0b1000, 0) := by decide

theorem test_xnor_vector :
    computed (exec (.xnor 3 1 (.reg 2)) (two 0xF0F0A5A5 0xFF00FF00 0b0011 0)) = some (0xF00FA55A, flag 0b0011, 0) := by decide

theorem test_xnorcc_vector :
    computed (exec (.xnorcc 3 1 (.reg 2)) (two 0xF0F0A5A5 0xFF00FF00 0b0011 0)) = some (0xF00FA55A, flag 0b1000, 0) := by decide

theorem test_andcc_zero :
    computed (exec (.andcc 3 1 (.reg 2)) (two 0xF0F0F0F 0xF0F0F0F0 0b1011 0)) = some (0, flag 0b0100, 0) := by decide

theorem test_orncc_zero :
    computed (exec (.orncc 3 1 (.reg 2)) (two 0 0xFFFFFFFF 0b1011 0)) = some (0, flag 0b0100, 0) := by decide

theorem test_or_immediate :
    computed (exec (.or 3 1 (.imm (-4096))) (two 0x123 0 0b0000 0)) = some (0xFFFFF123, flag 0b0000, 0) := by decide

theorem test_sll_count_modulo_32 :
    computed (exec (.sll 3 1 (.reg 2)) (two 1 0x20 0b1010 0)) = some (1, flag 0b1010, 0) := by decide

theorem test_sll_immediate :
    computed (exec (.sll 3 1 (.imm 4)) (two 0xFFFFFFF 0 0b0000 0)) = some (0xFFFFFFF0, flag 0b0000, 0) := by decide

theorem test_srl_count_modulo_32 :
    computed (exec (.srl 3 1 (.reg 2)) (two 0xFFFFFFFF 0x21 0b1010 0)) = some (0x7FFFFFFF, flag 0b1010, 0) := by decide

theorem test_srl_immediate :
    computed (exec (.srl 3 1 (.imm 16)) (two 0xABCD1234 0 0b0000 0)) = some (0xABCD, flag 0b0000, 0) := by decide

theorem test_sra_sign :
    computed (exec (.sra 3 1 (.reg 2)) (two 0x80000000 0x1F 0b1010 0)) = some (0xFFFFFFFF, flag 0b1010, 0) := by decide

theorem test_sra_immediate :
    computed (exec (.sra 3 1 (.imm 31)) (two 0xC0000000 0 0b0000 0)) = some (0xFFFFFFFF, flag 0b0000, 0) := by decide

theorem test_sethi_constant : regOf 12 (exec (.sethi 12 0x3C3C3C) base) = some 0xF0F0F000 := by decide

theorem test_sethi_r0 : regOf 0 (exec (.sethi 0 0x3FFFFF) base) = some 0 := by decide

theorem test_nop_advances : flow (exec .nop base) = some (0x104, 0x108) := by decide

/-! ## Loads and stores (95_test_vectors.md section 2.3) -/

theorem test_ldsb_sign :
    memoryOf (exec (.ldsb 4 1 (.imm 0)) data) = some (0xFFFFFF80, 0x55667788, 0x80FF7F01, 0xCAFEBABE) := by decide

theorem test_ldub_byte :
    memoryOf (exec (.ldub 4 1 (.imm 1)) data) = some (0xFF, 0x55667788, 0x80FF7F01, 0xCAFEBABE) := by decide

theorem test_ldsh_sign :
    memoryOf (exec (.ldsh 4 1 (.imm 0)) data) = some (0xFFFF80FF, 0x55667788, 0x80FF7F01, 0xCAFEBABE) := by decide

theorem test_ldsh_misaligned :
    trapOfResult (exec (.ldsh 4 1 (.imm 1)) data) = some ⟨0x40070, 7, true, true, false, 0x100, 0x104⟩ := by decide

theorem test_lduh_halfword :
    memoryOf (exec (.lduh 4 1 (.imm 6)) data) = some (0xBABE, 0x55667788, 0x80FF7F01, 0xCAFEBABE) := by decide

theorem test_lduh_misaligned :
    trapOfResult (exec (.lduh 4 1 (.imm 1)) data) = some ⟨0x40070, 7, true, true, false, 0x100, 0x104⟩ := by decide

theorem test_ld_register_form :
    memoryOf (exec (.ld 4 1 (.reg 2)) data) = some (0xCAFEBABE, 0x55667788, 0x80FF7F01, 0xCAFEBABE) := by decide

theorem test_ld_misaligned :
    trapOfResult (exec (.ld 4 1 (.imm 2)) data) = some ⟨0x40070, 7, true, true, false, 0x100, 0x104⟩ := by decide

theorem test_ldd_pair :
    memoryOf (exec (.ldd 4 1 (.imm 0)) data) = some (0x80FF7F01, 0xCAFEBABE, 0x80FF7F01, 0xCAFEBABE) := by decide

theorem test_ldd_odd_before_misaligned :
    trapOfResult (exec (.ldd 5 1 (.imm 4)) data) = some ⟨0x40020, 7, true, true, false, 0x100, 0x104⟩ := by decide

theorem test_stb_last_byte :
    memoryOf (exec (.stb 5 1 (.imm 7)) data) = some (0x11223344, 0x55667788, 0x80FF7F01, 0xCAFEBA88) := by decide

theorem test_sth_halfword :
    memoryOf (exec (.sth 4 1 (.imm 2)) data) = some (0x11223344, 0x55667788, 0x80FF3344, 0xCAFEBABE) := by decide

theorem test_sth_misaligned :
    trapOfResult (exec (.sth 4 1 (.imm 3)) data) = some ⟨0x40070, 7, true, true, false, 0x100, 0x104⟩ := by decide

theorem test_st_word :
    memoryOf (exec (.st 4 1 (.imm 4)) data) = some (0x11223344, 0x55667788, 0x80FF7F01, 0x11223344) := by decide

theorem test_st_misaligned :
    trapOfResult (exec (.st 4 1 (.imm 1)) data) = some ⟨0x40070, 7, true, true, false, 0x100, 0x104⟩ := by decide

theorem test_std_pair :
    memoryOf (exec (.std 4 1 (.imm 0)) data) = some (0x11223344, 0x55667788, 0x11223344, 0x55667788) := by decide

theorem test_std_misaligned :
    trapOfResult (exec (.std 4 1 (.imm 4)) data) = some ⟨0x40070, 7, true, true, false, 0x100, 0x104⟩ := by decide

theorem test_ldstub_byte :
    memoryOf (exec (.ldstub 4 1 (.imm 2)) data) = some (0x7F, 0x55667788, 0x80FFFF01, 0xCAFEBABE) := by decide

theorem test_swap_word :
    memoryOf (exec (.swap 4 1 (.imm 4)) data) = some (0xCAFEBABE, 0x55667788, 0x80FF7F01, 0x11223344) := by decide

theorem test_swap_misaligned :
    trapOfResult (exec (.swap 4 1 (.imm 2)) data) = some ⟨0x40070, 7, true, true, false, 0x100, 0x104⟩ := by decide

/-- A machine whose memory is the addresses 0x100 to 0x103 alone. -/
def smallMemory : State := { data with cfg := { data.cfg with memMap := [(0x100, 0x103)] } }

theorem test_unpopulated_data_access :
    trapOfResult (exec (.ld 4 1 (.imm 4)) smallMemory) = some ⟨0x40090, 7, true, true, false, 0x100, 0x104⟩ := by decide

/-! ## Branches (95_test_vectors.md section 2.4) -/

/-- A machine at PC = 0x100 with icc. -/
def flagged (nzvc : BitVec 4) : State := two 0 0 nzvc 0

theorem test_bne :
    flow (exec (.bne false 8) (flagged 0b0000)) = some (0x104, 0x120) ∧
      flow (exec (.bne true 8) (flagged 0b0100)) = some (0x108, 0x10C) := by decide

theorem test_be :
    flow (exec (.be false 8) (flagged 0b0100)) = some (0x104, 0x120) ∧
      flow (exec (.be true 8) (flagged 0b0000)) = some (0x108, 0x10C) := by decide

theorem test_bg :
    flow (exec (.bg false 8) (flagged 0b1010)) = some (0x104, 0x120) ∧
      flow (exec (.bg true 8) (flagged 0b0010)) = some (0x108, 0x10C) := by decide

theorem test_ble :
    flow (exec (.ble false 8) (flagged 0b1001)) = some (0x104, 0x120) ∧
      flow (exec (.ble true 8) (flagged 0b0000)) = some (0x108, 0x10C) := by decide

theorem test_bge :
    flow (exec (.bge false 8) (flagged 0b1010)) = some (0x104, 0x120) ∧
      flow (exec (.bge true 8) (flagged 0b1001)) = some (0x108, 0x10C) := by decide

theorem test_bl :
    flow (exec (.bl false 8) (flagged 0b1001)) = some (0x104, 0x120) ∧
      flow (exec (.bl true 8) (flagged 0b1010)) = some (0x108, 0x10C) := by decide

theorem test_bgu :
    flow (exec (.bgu false 8) (flagged 0b1000)) = some (0x104, 0x120) ∧
      flow (exec (.bgu true 8) (flagged 0b0001)) = some (0x108, 0x10C) := by decide

theorem test_bleu :
    flow (exec (.bleu false 8) (flagged 0b0100)) = some (0x104, 0x120) ∧
      flow (exec (.bleu true 8) (flagged 0b1000)) = some (0x108, 0x10C) := by decide

theorem test_bcc :
    flow (exec (.bcc false 8) (flagged 0b0000)) = some (0x104, 0x120) ∧
      flow (exec (.bcc true 8) (flagged 0b0001)) = some (0x108, 0x10C) := by decide

theorem test_bcs :
    flow (exec (.bcs false 8) (flagged 0b0001)) = some (0x104, 0x120) ∧
      flow (exec (.bcs true 8) (flagged 0b0000)) = some (0x108, 0x10C) := by decide

theorem test_bpos :
    flow (exec (.bpos false 8) (flagged 0b0100)) = some (0x104, 0x120) ∧
      flow (exec (.bpos true 8) (flagged 0b1000)) = some (0x108, 0x10C) := by decide

theorem test_bneg :
    flow (exec (.bneg false 8) (flagged 0b1000)) = some (0x104, 0x120) ∧
      flow (exec (.bneg true 8) (flagged 0b0000)) = some (0x108, 0x10C) := by decide

theorem test_bvc :
    flow (exec (.bvc false 8) (flagged 0b0000)) = some (0x104, 0x120) ∧
      flow (exec (.bvc true 8) (flagged 0b0010)) = some (0x108, 0x10C) := by decide

theorem test_bvs :
    flow (exec (.bvs false 8) (flagged 0b0010)) = some (0x104, 0x120) ∧
      flow (exec (.bvs true 8) (flagged 0b0000)) = some (0x108, 0x10C) := by decide

theorem test_ba :
    flow (exec (.ba false 8) (flagged 0b0100)) = some (0x104, 0x120) ∧
      flow (exec (.ba true 8) (flagged 0b0100)) = some (0x120, 0x124) := by decide

theorem test_bn :
    flow (exec (.bn false 8) (flagged 0b0100)) = some (0x104, 0x108) ∧
      flow (exec (.bn true 8) (flagged 0b0100)) = some (0x108, 0x10C) := by decide

theorem test_branch_backward : flow (exec (.bg false 0x200000) (flagged 0b0000)) = some (0x104, 0xFF800100) := by decide

/-! ## Subroutines and windows (95_test_vectors.md sections 2.5 and 2.6) -/

theorem test_call_backward :
    flow (exec (.call (-4)) (inWindow 0 0 0 true)) = some (0x2004, 0x1FF0) ∧
      regOf 15 (exec (.call (-4)) (inWindow 0 0 0 true)) = some 0x2000 := by decide

theorem test_jmpl_reads_before_link :
    flow (exec (.jmpl 1 1 (.imm 0)) ((inWindow 0 0 0 true).writeReg 1 0x3000)) = some (0x2004, 0x3000) ∧
      regOf 1 (exec (.jmpl 1 1 (.imm 0)) ((inWindow 0 0 0 true).writeReg 1 0x3000)) = some 0x2000 := by decide

theorem test_jmpl_misaligned :
    trapOfResult (exec (.jmpl 15 1 (.imm 2)) ((inWindow 0 0 0 true).writeReg 1 0x3000)) =
      some ⟨0x40070, 7, true, true, false, 0x2000, 0x2004⟩ := by decide

theorem test_save_moves_window :
    regOf 14 (exec (.save 14 14 (.imm (-96))) ((inWindow 3 1 0 true).writeReg 14 0x8000)) = some 0x7FA0 ∧
      regOf 30 (exec (.save 14 14 (.imm (-96))) ((inWindow 3 1 0 true).writeReg 14 0x8000)) = some 0x8000 := by decide

theorem test_save_overflow :
    trapOfResult (exec (.save 0 0 (.reg 0)) (inWindow 0 0x80 0 true)) =
      some ⟨0x40050, 7, true, true, false, 0x2000, 0x2004⟩ := by decide

theorem test_restore_moves_window :
    regOf 8 (exec (.restore 8 24 (.reg 25)) (((inWindow 7 2 0 true).writeReg 24 7).writeReg 25 8)) = some 0xF ∧
      regOf 24 (exec (.restore 8 24 (.reg 25)) (((inWindow 7 2 0 true).writeReg 24 7).writeReg 25 8)) = some 0 := by
  decide

theorem test_restore_underflow :
    trapOfResult (exec (.restore 0 0 (.reg 0)) (inWindow 7 1 0 true)) =
      some ⟨0x40060, 6, true, true, false, 0x2000, 0x2004⟩ := by decide

/-! ## Trap instructions (95_test_vectors.md sections 2.7 and 2.8) -/

theorem test_tne :
    flow (exec (.tne 0 (.imm 16)) (inWindow 2 0 0b0000 true)) = some (0x40900, 0x40904) ∧
      flow (exec (.tne 0 (.imm 16)) (inWindow 2 0 0b0100 true)) = some (0x2004, 0x2008) := by decide

theorem test_te :
    flow (exec (.te 0 (.imm 16)) (inWindow 2 0 0b0100 true)) = some (0x40900, 0x40904) ∧
      flow (exec (.te 0 (.imm 16)) (inWindow 2 0 0b0000 true)) = some (0x2004, 0x2008) := by decide

theorem test_tg :
    flow (exec (.tg 0 (.imm 16)) (inWindow 2 0 0b1010 true)) = some (0x40900, 0x40904) ∧
      flow (exec (.tg 0 (.imm 16)) (inWindow 2 0 0b0010 true)) = some (0x2004, 0x2008) := by decide

theorem test_tle :
    flow (exec (.tle 0 (.imm 16)) (inWindow 2 0 0b1001 true)) = some (0x40900, 0x40904) ∧
      flow (exec (.tle 0 (.imm 16)) (inWindow 2 0 0b0000 true)) = some (0x2004, 0x2008) := by decide

theorem test_tge :
    flow (exec (.tge 0 (.imm 16)) (inWindow 2 0 0b1010 true)) = some (0x40900, 0x40904) ∧
      flow (exec (.tge 0 (.imm 16)) (inWindow 2 0 0b1001 true)) = some (0x2004, 0x2008) := by decide

theorem test_tl :
    flow (exec (.tl 0 (.imm 16)) (inWindow 2 0 0b1001 true)) = some (0x40900, 0x40904) ∧
      flow (exec (.tl 0 (.imm 16)) (inWindow 2 0 0b1010 true)) = some (0x2004, 0x2008) := by decide

theorem test_tgu :
    flow (exec (.tgu 0 (.imm 16)) (inWindow 2 0 0b1000 true)) = some (0x40900, 0x40904) ∧
      flow (exec (.tgu 0 (.imm 16)) (inWindow 2 0 0b0001 true)) = some (0x2004, 0x2008) := by decide

theorem test_tleu :
    flow (exec (.tleu 0 (.imm 16)) (inWindow 2 0 0b0100 true)) = some (0x40900, 0x40904) ∧
      flow (exec (.tleu 0 (.imm 16)) (inWindow 2 0 0b1000 true)) = some (0x2004, 0x2008) := by decide

theorem test_tcc :
    flow (exec (.tcc 0 (.imm 16)) (inWindow 2 0 0b0000 true)) = some (0x40900, 0x40904) ∧
      flow (exec (.tcc 0 (.imm 16)) (inWindow 2 0 0b0001 true)) = some (0x2004, 0x2008) := by decide

theorem test_tcs :
    flow (exec (.tcs 0 (.imm 16)) (inWindow 2 0 0b0001 true)) = some (0x40900, 0x40904) ∧
      flow (exec (.tcs 0 (.imm 16)) (inWindow 2 0 0b0000 true)) = some (0x2004, 0x2008) := by decide

theorem test_tpos :
    flow (exec (.tpos 0 (.imm 16)) (inWindow 2 0 0b0100 true)) = some (0x40900, 0x40904) ∧
      flow (exec (.tpos 0 (.imm 16)) (inWindow 2 0 0b1000 true)) = some (0x2004, 0x2008) := by decide

theorem test_tneg :
    flow (exec (.tneg 0 (.imm 16)) (inWindow 2 0 0b1000 true)) = some (0x40900, 0x40904) ∧
      flow (exec (.tneg 0 (.imm 16)) (inWindow 2 0 0b0000 true)) = some (0x2004, 0x2008) := by decide

theorem test_tvc :
    flow (exec (.tvc 0 (.imm 16)) (inWindow 2 0 0b0000 true)) = some (0x40900, 0x40904) ∧
      flow (exec (.tvc 0 (.imm 16)) (inWindow 2 0 0b0010 true)) = some (0x2004, 0x2008) := by decide

theorem test_tvs :
    flow (exec (.tvs 0 (.imm 16)) (inWindow 2 0 0b0010 true)) = some (0x40900, 0x40904) ∧
      flow (exec (.tvs 0 (.imm 16)) (inWindow 2 0 0b0000 true)) = some (0x2004, 0x2008) := by decide

theorem test_ta_sum_modulo_128 :
    trapOfResult (exec (.ta 1 (.reg 2)) (((inWindow 2 0 0 false).writeReg 1 0xFFFFFF80).writeReg 2 0x101)) =
      some ⟨0x40810, 1, true, false, false, 0x2000, 0x2004⟩ := by decide

theorem test_ta_200 :
    trapOfResult (exec (.ta 0 (.imm 72)) (inWindow 2 0 0 false)) =
      some ⟨0x40C80, 1, true, false, false, 0x2000, 0x2004⟩ := by decide

theorem test_tn : flow (exec (.tn 0 (.imm 5)) (inWindow 2 0 0b1111 true)) = some (0x2004, 0x2008) := by decide

theorem test_unimp : flow (exec (.unimp 3 0x312) (inWindow 2 0 0 true)) = some (0x40020, 0x40024) := by decide

/-- A handler about to return: ET = 0, PS, x[18] = 0x104, PC = 0x4C84, nPC = 0x104. -/
def handler (cwp : BitVec 5) (wim : Word) (ps : Bool) : State :=
  { (inWindow cwp wim 0 true).writeReg 18 0x104 with
    psr := { (inWindow cwp wim 0 true).psr with et := false, ps := ps }
    pc := 0x4C84
    npc := 0x104 }

theorem test_rett_returns :
    flow (exec (.rett 18 (.imm 4)) (handler 2 0 false)) = some (0x104, 0x108) ∧
      specials (exec (.rett 18 (.imm 4)) (handler 2 0 false)) = some (0x23, 0, 0x40000, 0) := by decide

theorem test_rett_into_invalid_window :
    inError (exec (.rett 18 (.reg 0)) (handler 7 1 false)) = true ∧
      inError (exec (.rett 18 (.imm 2)) (handler 2 0 false)) = true := by decide

/-! ## State registers (95_test_vectors.md section 2.9) -/

/-- Supervisor or user mode with the special registers of the vectors. -/
def withSpecials (sup : Bool) : State :=
  { inWindow 3 0x80 0b1001 sup with
    psr := ⟨flag 0b1001, 5, sup, true, true, 3⟩
    tbr := ⟨0x12345, 0x2A⟩
    y := 0xCAFE0001 }

theorem test_rdpsr : regOf 23 (exec (.rdpsr 23) (withSpecials true)) = some 0x009005E3 := by decide

theorem test_rdpsr_user : flow (exec (.rdpsr 23) (withSpecials false)) = some (0x12345030, 0x12345034) := by decide

theorem test_rdwim : regOf 19 (exec (.rdwim 19) (withSpecials true)) = some 0x80 := by decide

theorem test_rdtbr : regOf 3 (exec (.rdtbr 3) (withSpecials true)) = some 0x123452A0 := by decide

theorem test_rdy : regOf 3 (exec (.rdy 3) (withSpecials false)) = some 0xCAFE0001 := by decide

theorem test_rdasr : flow (exec (.rdasr 0 15) (withSpecials true)) = some (0x12345020, 0x12345024) := by decide

theorem test_wrpsr :
    specials (exec (.wrpsr 5 (.reg 17)) (((inWindow 3 0 0 true).writeReg 5 0x00F010E7).writeReg 17 7)) =
      some (0x00F000E0, 0, 0x40000, 0) := by decide

theorem test_wrpsr_bad_window :
    flow (exec (.wrpsr 5 (.reg 0)) ((inWindow 3 0 0 true).writeReg 5 0xC8)) = some (0x40020, 0x40024) ∧
      flow (exec (.wrpsr 5 (.reg 0)) ((inWindow 3 0 0 false).writeReg 5 0xC9)) = some (0x40030, 0x40034) := by decide

theorem test_wrwim :
    specials (exec (.wrwim 16 (.imm 55)) ((inWindow 3 0 0 true).writeReg 16 0xFF)) =
      some (0xA3, 0xC8, 0x40000, 0) := by decide

theorem test_wrwim_absent_windows :
    specials (exec (.wrwim 16 (.imm 55)) ((inWindow 3 0 0 true).writeReg 16 0xFFFFFF00)) =
      some (0xA3, 0x37, 0x40000, 0) := by decide

theorem test_wrtbr :
    specials (exec (.wrtbr 4 (.imm (-1))) (withSpecials true)) =
      some (0x009005E3, 0x80, 0xFFFFF2A0, 0xCAFE0001) := by decide

theorem test_wry :
    specials (exec (.wry 1 (.reg 2)) (((inWindow 3 0 0 false).writeReg 1 0xFF00FF00).writeReg 2 0x0F0F0F0F)) =
      some (0x23, 0, 0x40000, 0xF00FF00F) := by decide

theorem test_wrasr : flow (exec (.wrasr 17 1 (.imm 0)) (withSpecials false)) = some (0x12345020, 0x12345024) := by decide

/-! ## Steps: fetch, interrupts, error mode, reset, hazards (95_test_vectors.md sections 2.11 and 2.12) -/

theorem test_step_fetches : computed (step ((two 0xFFFFFFFF 1 0b1111 0).withFetchWord 32 0x86004002)) =
    some (0, flag 0b1111, 0) := by decide

theorem test_step_from_reset : flow (step (State.reset.withFetchWord 32 0x01000000)) = some (4, 8) := by decide

theorem test_step_error_mode : inError (step State.reset) = true := by decide

theorem test_fetch_of_stored_byte :
    goesOn (step { base.withFetchWord 32 0x01000000 with storedTo := [0x103] }) = false := by decide

theorem test_fetch_unpopulated : flow (step { smallMemory with pc := 0x104 }) = some (0x40010, 0x40014) := by decide

/-- The base machine in the environment's hands. -/
def offered (irl pil : BitVec 4) : State :=
  { inWindow 0 0 0 true with
    psr := { (inWindow 0 0 0 true).psr with pil := pil }
    inputs := [⟨irl, [(0x2000, 0x01)], [], none⟩] }

theorem test_interrupt_taken :
    trapOfResult (step (offered 3 2)) = some ⟨0x40130, 7, true, true, false, 0x2000, 0x2004⟩ ∧
      flow (step (offered 15 15)) = some (0x401F0, 0x401F4) := by decide

/-- The DMA write of the step makes the word at PC a NOP, and level 3 is masked by PIL = 3. -/
theorem test_interrupt_masked : flow (step (offered 3 3)) = some (0x2004, 0x2008) := by decide

theorem test_reset_leaves_error_mode :
    flow (step { base with errorMode := true, inputs := [⟨15, [], [], some [(0, 1)]⟩] }) = some (0, 4) ∧
      inError (step { base with errorMode := true, inputs := [⟨15, [], [], some [(0, 1)]⟩] }) = false := by decide

/-- The loaded state with a DMA write under way to the first and to the second word (20_memory.md rule R67). -/
def raced : State := { data with dmaPending := [(0x103, 0xAA), (0x107, 0xBB)] }

/-- What a result's state reads at two registers and two words. -/
def pairOf : Result → Option (Word × Word × Word × Word)
  | .next t => some (t.readReg 4, t.readReg 5, t.readWord 0x100, t.readWord 0x104)
  | _ => none

theorem test_ldd_is_atomic_per_word :
    pairOf (exec (.ldd 4 1 (.imm 0)) raced) = some (0x80FF7F01, 0xCAFEBABB, 0x80FF7FAA, 0xCAFEBABB) := by decide

theorem test_std_is_atomic_per_word :
    pairOf (exec (.std 4 1 (.imm 0)) raced) = some (0x11223344, 0x55667788, 0x112233AA, 0x55667788) := by decide

/-- DMA writes that no doubleword access met land before the next step. -/
theorem test_dma_lands_before_the_next_step :
    raced.takeInput.readWord 0x100 = 0x80FF7FAA ∧ raced.takeInput.dmaPending = [] := by decide

/-- Error mode at a branch to itself is not the end of the run (60_exceptions.md rule R336). -/
theorem test_end_of_run_is_not_error_mode :
    (base.withFetchWord 32 0x10800000).atEnd = true ∧
      { base.withFetchWord 32 0x10800000 with errorMode := true }.atEnd = false := by decide

theorem test_hazard_y_window :
    hazard (.udiv 4 2 (.reg 3)) { base with pending := { Pending.closed with y := 1 } } = some (.delayedWrite .y) ∧
      hazard (.udiv 4 2 (.reg 3)) { base with pending := { Pending.closed with y := 0 } } = none := by decide

theorem test_hazard_couple :
    hazard (.ba false 8) { base with dctiPrev := .cond } = some .dctiCouple ∧
      hazard (.be false 8) { base with dctiPrev := .uncond } = none := by decide

/-! ## States and operands that meet the hypotheses of the statements

One theorem per statement with hypotheses; each of its clauses at a boundary of its range. -/

/-- A state with delayed-write windows. -/
def pendingOf (p : Pending) : State := { base with pending := p }

/-- A PSR window in its last instruction, with the fields that changed. -/
def psrWindow (changed : PsrChanged) : Pending := { Pending.closed with psr := 1, changed := changed }

/-- A state whose word at PC is a NOP. -/
def atNop : State := base.withFetchWord 32 0x01000000

theorem base_inv : base.Inv where
  pcAligned := by decide
  npcAligned := by decide
  cwpLegal := by decide
  wimMasked := by decide
  globalZero := by decide
  absentWindows := by intro j _; simp [base, State.reset]
  memCanonical := by decide
  memInSpace := by decide
  storedRising := by decide

theorem atNop_inv : atNop.Inv where
  pcAligned := by decide
  npcAligned := by decide
  cwpLegal := by decide
  wimMasked := by decide
  globalZero := by decide
  absentWindows := by intro j _; simp [atNop, State.withFetchWord, State.loadWordAtPc, base, State.reset]
  memCanonical := by decide
  memInSpace := by decide
  storedRising := by decide

theorem base_trapsTaken : TrapsTaken base := ⟨by decide, by decide, by decide⟩

theorem witness_DecodeInvertsEncode :
    Instr.wellFormed (.wrasr 31 0 (.imm (-1))) = true ∧ Instr.wellFormed (.rdasr 31 1) = true ∧
      Instr.wellFormed (.sethi 1 0) = true := by decide

theorem witness_DecodedWordIsTheEncoding :
    (decode .specDefault 0x86004002 = .instr (.add 3 1 (.reg 2)) ∧ Config.specDefault.reservedPolicy = .refuse ∧
        readsStateRegister (.add 3 1 (.reg 2)) = false) ∧
      decode .specDefault 0xAF4FFFFF = .instr (.rdpsr 23) ∧ readsStateRegister (.rdpsr 23) = true := by decide

theorem witness_EncodingsOutsideTheTable :
    (0b101#3 ∈ [0b001#3, 0b011, 0b101]) ∧ (0x3F#6 ∈ [0x0D#6, 0x1D, 0x2C, 0x2D, 0x2E, 0x2F, 0x3E, 0x3F]) ∧
      Config.specDefault.smulOp3 = .source ∧ otherPolicy.smulOp3 = .published ∧
      decode .specDefault 0x86584002 = .illegal ∧ decode otherPolicy 0x86484002 = .illegal := by decide

theorem witness_ReservedFieldFollowsPolicy :
    ((1#8 : BitVec 8) ≠ 0 ∧
        decode .specDefault (2#2 ++ 3#5 ++ 0#6 ++ 1#5 ++ 0#1 ++ (0#8 ++ 2#5)) = .instr (.add 3 1 (.reg 2)) ∧
        readsStateRegister (.add 3 1 (.reg 2)) = false ∧ otherPolicy.reservedPolicy = .ignore) ∧
      ((0x80#8 : BitVec 8) ≠ 0 ∧
        decode .specDefault (3#2 ++ 2#5 ++ 1#6 ++ 1#5 ++ 0#1 ++ (0#8 ++ 2#5)) = .instr (.ldub 2 1 (.reg 2))) ∧
      decode .specDefault (2#2 ++ 23#5 ++ 0x29#6 ++ 0#5 ++ 0#1 ++ (0#8 ++ 0#5)) = .instr (.rdpsr 23) ∧
      ((1#1 : BitVec 1) ≠ 0 ∧ (0x20#6 : BitVec 6) ≠ 0 ∧ (31#5 : BitVec 5) ≠ 0) ∧
      (decode .specDefault 0x87386084 = .rejected .reservedField ∧
        decode otherPolicy 0x87386084 = .instr (.sra 3 1 (.imm 4))) ∧
      (decode .specDefault 0xB1D02048 = .rejected .reservedField ∧
        decode otherPolicy 0xB1D030C8 = .instr (.ta 0 (.imm 72))) ∧
      (decode .specDefault 0x83942037 = .rejected .reservedField ∧
        decode otherPolicy 0x83942037 = .instr (.wrwim 16 (.imm 55))) := by decide

theorem witness_TaggedAddRules :
    let f := fun a b : Word =>
      ((addFlags a b false).v, a.getLsbD 0 || a.getLsbD 1 || b.getLsbD 0 || b.getLsbD 1)
    f 4 8 = (false, false) ∧ f 0x7FFFFFFC 4 = (true, false) ∧ f 6 8 = (false, true) := by decide

theorem witness_TaggedSubtractRules :
    let f := fun a b : Word =>
      ((subFlags a b false).v, a.getLsbD 0 || a.getLsbD 1 || b.getLsbD 0 || b.getLsbD 1)
    f 12 4 = (false, false) ∧ f 0x80000000 4 = (true, false) ∧ f 12 3 = (false, true) := by decide

theorem witness_MultiplyRules : Config.specDefault.smulOp3 = .source ∧ otherPolicy.smulOp3 = .published := by decide

theorem witness_DivideRules : base.op2val (.imm 0) = 0 ∧ base.op2val (.imm 1) ≠ 0 := by decide

theorem witness_QuotientsDivide :
    (1#32 ≠ 0 ∧ (unsignedQuotient 1 0 1).2 = true) ∧ (unsignedQuotient 0 0xFFFFFFFF 1).2 = false ∧
      (signedQuotient 0 0x7FFFFFFF 1).2 = false ∧ (signedQuotient 0 0x80000000 1).2 = true := by decide

theorem witness_SethiAndNopRules : ¬((0 : RegIdx) = 0 ∧ (1#22 : BitVec 22) = 0) ∧ ¬((1 : RegIdx) = 0 ∧ (0#22 : BitVec 22) = 0) := by
  decide

/-- Of each width: a misaligned address, the first unpopulated one, and the last populated one. A byte access is never
misaligned. -/
theorem witness_accesses :
    ((0x101#32).toNat % 2 ≠ 0 ∧ (0x102#32).toNat % 4 ≠ 0 ∧ (0x104#32).toNat % 8 ≠ 0) ∧
      ((0x104#32).toNat % 1 = 0 ∧ smallMemory.accessible 0x104 1 = false ∧ (0x104#32).toNat % 2 = 0 ∧
        smallMemory.accessible 0x104 2 = false ∧ (0x104#32).toNat % 4 = 0 ∧ smallMemory.accessible 0x104 4 = false ∧
        (0x100#32).toNat % 8 = 0 ∧ smallMemory.accessible 0x100 8 = false) ∧
      (smallMemory.accessible 0x103 1 = true ∧ (0x102#32).toNat % 2 = 0 ∧ smallMemory.accessible 0x102 2 = true ∧
        (0x100#32).toNat % 4 = 0 ∧ smallMemory.accessible 0x100 4 = true ∧ data.accessible 0xFFFFFFF8 8 = true) := by
  decide

theorem witness_LoadRules :
    (data.readReg 1 + data.op2val (.imm 3)).toNat % 4 ≠ 0 ∧
      ((smallMemory.readReg 1 + smallMemory.op2val (.imm 4)).toNat % 4 = 0 ∧
        smallMemory.accessible (smallMemory.readReg 1 + smallMemory.op2val (.imm 4)) 4 = false) ∧
      ((smallMemory.readReg 1 + smallMemory.op2val (.imm 0)).toNat % 4 = 0 ∧
        smallMemory.accessible (smallMemory.readReg 1 + smallMemory.op2val (.imm 0)) 4 = true) := by decide

theorem witness_LoadDoubleRule :
    (31#5).toNat % 2 = 1 ∧ (30#5).toNat % 2 = 0 ∧ (data.readReg 1 + data.op2val (.imm 4)).toNat % 8 ≠ 0 ∧
      (data.readReg 1 + data.op2val (.imm 8)).toNat % 8 = 0 ∧
      data.accessible (data.readReg 1 + data.op2val (.imm 8)) 8 = true ∧ data.dmaPending = [] ∧
      smallMemory.accessible (smallMemory.readReg 1 + smallMemory.op2val (.imm 0)) 8 = false := by decide

theorem witness_StoreRules :
    (data.readReg 1 + data.op2val (.imm 1)).toNat % 2 ≠ 0 ∧
      ((smallMemory.readReg 1 + smallMemory.op2val (.imm 4)).toNat % 2 = 0 ∧
        smallMemory.accessible (smallMemory.readReg 1 + smallMemory.op2val (.imm 4)) 2 = false) ∧
      ((smallMemory.readReg 1 + smallMemory.op2val (.imm 2)).toNat % 2 = 0 ∧
        smallMemory.accessible (smallMemory.readReg 1 + smallMemory.op2val (.imm 2)) 2 = true) := by decide

theorem witness_StoreDoubleRule :
    (1#5).toNat % 2 = 1 ∧ (0#5).toNat % 2 = 0 ∧ (data.readReg 1 + data.op2val (.imm (-4))).toNat % 8 ≠ 0 ∧
      (data.readReg 1 + data.op2val (.imm (-8))).toNat % 8 = 0 ∧
      data.accessible (data.readReg 1 + data.op2val (.imm (-8))) 8 = true ∧ data.dmaPending = [] ∧
      smallMemory.accessible (smallMemory.readReg 1 + smallMemory.op2val (.imm 0)) 8 = false := by decide

theorem witness_LdstubAndSwapRules :
    (data.readReg 1 + data.op2val (.imm 3)).toNat % 4 ≠ 0 ∧
      ((smallMemory.readReg 1 + smallMemory.op2val (.imm 4)).toNat % 1 = 0 ∧
        smallMemory.accessible (smallMemory.readReg 1 + smallMemory.op2val (.imm 4)) 1 = false) ∧
      smallMemory.accessible (smallMemory.readReg 1 + smallMemory.op2val (.imm 3)) 1 = true := by decide

theorem witness_BigEndianMemory : (0xFF#32) ∉ bytesFrom 0x100 4 ∧ (0x104#32) ∉ bytesFrom 0x100 4 := by decide

theorem witness_BranchRules :
    (condTrue .a base.psr.icc = true ∧ condTrue .n base.psr.icc = false) ∧
      condTrue .ne base.psr.icc = true ∧ condTrue .e base.psr.icc = false := by decide

theorem witness_ConditionsCompare : condCode .vs = condCode .vc ^^^ 0b1000#4 ∧ condCode .a = condCode .n ^^^ 0b1000#4 := by
  decide

theorem witness_CallAndJumpRules :
    (base.readReg 0 + base.op2val (.imm 1)).toNat % 4 ≠ 0 ∧ (base.readReg 0 + base.op2val (.imm (-4))).toNat % 4 = 0 ∧
      { base with dctiPrev := .cond }.dctiPrev = DctiPrev.cond := by decide

/-- Windows 0 and 7, where the ring closes. -/
theorem witness_WindowMoveRules :
    ((7#5).toNat = ((inWindow 0 0x80 0 true).psr.cwp.toNat + (inWindow 0 0x80 0 true).cfg.nwindows.toNat - 1) %
        (inWindow 0 0x80 0 true).cfg.nwindows.toNat ∧
      (inWindow 0 0x80 0 true).wim.getLsbD (7#5).toNat = true ∧ (inWindow 0 0x02 0 true).wim.getLsbD (7#5).toNat = false ∧
      (1#5).toNat = ((inWindow 0 0x80 0 true).psr.cwp.toNat + 1) % (inWindow 0 0x80 0 true).cfg.nwindows.toNat) ∧
    ((0#5).toNat = ((inWindow 7 0x01 0 true).psr.cwp.toNat + 1) % (inWindow 7 0x01 0 true).cfg.nwindows.toNat ∧
      (inWindow 7 0x01 0 true).wim.getLsbD (0#5).toNat = true ∧ (inWindow 7 0x40 0 true).wim.getLsbD (0#5).toNat = false ∧
      (6#5).toNat = ((inWindow 7 0x01 0 true).psr.cwp.toNat + (inWindow 7 0x01 0 true).cfg.nwindows.toNat - 1) %
        (inWindow 7 0x01 0 true).cfg.nwindows.toNat) := by decide

theorem witness_TrapInstructionRules :
    condTrue .n base.psr.icc = false ∧ condTrue .a base.psr.icc = true ∧ TrapsTaken base :=
  ⟨by decide, by decide, base_trapsTaken⟩

theorem witness_ReturnFromTrapRule :
    ((3#5).toNat = ((handler 2 0 true).psr.cwp.toNat + 1) % (handler 2 0 true).cfg.nwindows.toNat ∧
      (handler 2 0 true).psr.et = false ∧ (handler 2 0 true).psr.s = true ∧
      (handler 2 0 true).wim.getLsbD (3#5).toNat = false ∧ (handler 2 8 true).wim.getLsbD (3#5).toNat = true ∧
      ((handler 2 0 true).readReg 18 + (handler 2 0 true).op2val (.imm 4)).toNat % 4 = 0 ∧
      ((handler 2 0 true).readReg 18 + (handler 2 0 true).op2val (.imm 1)).toNat % 4 ≠ 0) ∧
    ((inWindow 7 0 0 false).psr.et = true ∧ (inWindow 7 0 0 false).psr.s = false ∧ (inWindow 7 0 0 true).psr.s = true ∧
      (0#5).toNat = ((inWindow 7 0 0 false).psr.cwp.toNat + 1) % (inWindow 7 0 0 false).cfg.nwindows.toNat) ∧
    (({ handler 2 0 true with psr := { (handler 2 0 true).psr with s := false } } : State).psr.s = false ∧
      ({ handler 2 0 true with dctiPrev := .cond } : State).dctiPrev = .cond) := by decide

theorem witness_UnimpAndFlushRule : TrapsTaken base := base_trapsTaken

theorem witness_ReadStateRegisterRules :
    (withSpecials false).psr.s = false ∧ (withSpecials true).psr.s = true ∧
      (pendingOf { Pending.closed with psr := 1 }).pending.psr ≠ 0 ∧
      (pendingOf { Pending.closed with wim := 1 }).pending.wim ≠ 0 ∧
      (pendingOf { Pending.closed with tbr := 1 }).pending.tbr ≠ 0 ∧
      (pendingOf { Pending.closed with y := 1 }).pending.y ≠ 0 := by decide

/-- CWP fields 7 and 8 of eight windows. -/
theorem witness_WritePsrRule :
    (withSpecials false).psr.s = false ∧
      (base.psr.s = true ∧ base.cfg.nwindows.toNat ≤ (base.readReg 0 ^^^ base.op2val (.imm 8)).toNat % 32) ∧
      (base.readReg 0 ^^^ base.op2val (.imm 7)).toNat % 32 < base.cfg.nwindows.toNat := by decide

theorem witness_WriteWimTbrYRules : (withSpecials false).psr.s = false ∧ (withSpecials true).psr.s = true := by decide

theorem witness_AncillaryRegisterRules : (1 : RegIdx) ≠ 0 ∧ (31 : RegIdx) ≠ 0 ∧ TrapsTaken base :=
  ⟨by decide, by decide, base_trapsTaken⟩

/-- Windows 0 and 7 of eight, registers 0 and 7 of a group. -/
theorem witness_WindowOverlap :
    (7#5).toNat < 8 ∧ (0#5).toNat < base.cfg.nwindows.toNat ∧ (7#5).toNat < base.cfg.nwindows.toNat ∧
      (7#5).toNat = ((0#5).toNat + base.cfg.nwindows.toNat - 1) % base.cfg.nwindows.toNat ∧
      (6#5).toNat = ((7#5).toNat + base.cfg.nwindows.toNat - 1) % base.cfg.nwindows.toNat ∧ (7#5) ≠ 0#5 := by decide

theorem witness_TrapEntryRule :
    ((pendingOf (psrWindow ⟨false, false, true, false, false, false⟩)).pending.psr ≠ 0 ∧
      (pendingOf (psrWindow ⟨false, false, true, false, false, false⟩)).pending.changed.s = true) ∧
    (pendingOf (psrWindow ⟨false, false, false, false, false, true⟩)).pending.changed.cwp = true ∧
    (State.reset.modeOrWindowUnsettled = false ∧ State.reset.psr.et = false) ∧
    ((pendingOf { Pending.closed with tbr := 1 }).modeOrWindowUnsettled = false ∧
      (pendingOf { Pending.closed with tbr := 1 }).psr.et = true ∧
      (pendingOf { Pending.closed with tbr := 1 }).pending.tbr ≠ 0) ∧
    TrapsTaken base :=
  ⟨by decide, by decide, by decide, by decide, base_trapsTaken⟩

theorem witness_ErrorModeRule :
    ({ base with errorMode := true }.errorMode = true ∧ { base with errorMode := true }.inputs = [] ∧
        { base with errorMode := true }.dmaPending = []) ∧
      ({ offered 15 0 with errorMode := true }.inputs ≠ [] ∧ { offered 15 0 with errorMode := true }.input.reset = none) ∧
      ({ base with errorMode := true, dmaPending := [(0x100, 1)] }.dmaPending ≠ [] ∧
        { base with errorMode := true, dmaPending := [(0x100, 1)] }.input.reset = none) ∧
      { base with errorMode := true, inputs := [⟨0, [], [], some []⟩] }.input.reset = some [] := by decide

theorem witness_InterruptRule :
    ((offered 3 2).errorMode = false ∧ (offered 3 2).input.reset = none ∧
      ((offered 3 2).psr.et = true ∧ (2#4).toNat < (3#4).toNat)) ∧
    (¬((3#4) = 15 ∨ (offered 3 3).psr.pil.toNat < (3#4).toNat)) ∧
    (let u := { offered 3 2 with pending := { psrWindow ⟨false, true, false, false, false, false⟩ with oldPil := 3 } }
     u.pending.psr ≠ 0 ∧ u.pending.changed.pil = true ∧ ¬(u.pending.oldPil.toNat < u.input.irl.toNat) ∧
      u.psr.pil.toNat < u.input.irl.toNat) ∧
    TrapsTaken ((offered 3 2).takeInput) :=
  ⟨by decide, by decide, by decide, by decide, by decide, by decide⟩

theorem witness_ResetRule : { base with inputs := [⟨15, [], [], some [(0, 1), (0, 2)]⟩] }.input.reset = some [(0, 1), (0, 2)] := by
  decide

theorem witness_StepRunsDecodedInstruction :
    (atNop.inputs = [] ∧ atNop.dmaPending = [] ∧ atNop.errorMode = false ∧ atNop.input.reset = none ∧
      interruptTest atNop.input.irl atNop.psr.et atNop.psr.pil = false ∧
      interruptTest atNop.input.irl atNop.psr.et atNop.pending.oldPil = false ∧
      (atNop.takeInput).accessible atNop.pc 4 = true ∧
      (atNop.takeInput).fetchesStored = false ∧
      decodeBytes atNop.cfg (atNop.takeInput).fetchBytes = .instr .nop ∧ hazard .nop atNop = none) ∧
    (decodeBytes .specDefault ((offered 3 3).takeInput).fetchBytes = .instr .nop ∧
      interruptTest 3 true 3 = false) ∧
    (let u := { offered 3 3 with pending := { psrWindow ⟨false, true, false, false, false, false⟩ with oldPil := 4 } }
     u.pending.psr ≠ 0 ∧ u.pending.changed.pil = true ∧ interruptTest u.input.irl u.psr.et u.psr.pil = false ∧
      interruptTest u.input.irl u.psr.et u.pending.oldPil = false) ∧
    hazard (.rdy 1) (pendingOf { Pending.closed with y := 1 }) = some (.delayedWrite .y) := by decide

theorem witness_FetchRule :
    (let s := { smallMemory with pc := 0x104 }
     s.errorMode = false ∧ s.inputs = [] ∧ s.dmaPending = [] ∧ s.accessible s.pc 4 = false) ∧
    (let s := { atNop with storedTo := [0x103] }
     s.accessible s.pc 4 = true ∧ ∃ a ∈ bytesFrom s.pc 4, a.toNat ∈ s.storedTo) ∧
    (let f := fun w : Nat => base.withFetchWord 32 w
     (f 0x00400000).accessible 0x100 4 = true ∧ (∀ a ∈ bytesFrom (f 0x00400000).pc 4, a.toNat ∉ (f 0x00400000).storedTo) ∧
      decode (f 0x00400000).cfg ((f 0x00400000).readWord 0x100) = .illegal ∧
      decode (f 0x01800000).cfg ((f 0x01800000).readWord 0x100) = .fpDisabled ∧
      decode (f 0x01C00000).cfg ((f 0x01C00000).readWord 0x100) = .cpDisabled ∧
      decode (f 0x81D80000).cfg ((f 0x81D80000).readWord 0x100) = .rejected .flush ∧
      decode (f 0xC0800000).cfg ((f 0xC0800000).readWord 0x100) = .rejected .alternateSpace ∧
      decode (f 0x86004022).cfg ((f 0x86004022).readWord 0x100) = .rejected .reservedField) :=
  ⟨by decide, ⟨by decide, 0x103, by decide, by decide⟩, by decide, fun _ _ h => List.not_mem_nil h, by decide, by decide,
    by decide, by decide, by decide, by decide⟩

theorem witness_StepKeepsInvariant : atNop.Inv ∧ ∃ t, step atNop = .next t := ⟨atNop_inv, exists_of_goesOn (by decide)⟩

theorem witness_ParametersNeverChange : ∃ t, step State.reset = .next t := exists_of_goesOn (by decide)

theorem witness_CwpChangeEvents :
    (∃ t, exec (.save 0 0 (.reg 0)) (inWindow 0 0 0 true) = .next t) ∧
      (∃ t, exec (.ta 0 (.imm 0)) (inWindow 0 0 0 true) = .next t) ∧
      (∃ t, exec (.restore 0 0 (.reg 0)) (inWindow 7 0 0 true) = .next t) ∧
      (∃ t, exec (.rett 18 (.imm 4)) (handler 7 0 true) = .next t) ∧
      (∃ t, exec (.wrpsr 0 (.imm 7)) (inWindow 0 0 0 true) = .next t) ∧ ∃ t, exec .nop base = .next t :=
  ⟨exists_of_goesOn (by decide), exists_of_goesOn (by decide), exists_of_goesOn (by decide),
    exists_of_goesOn (by decide), exists_of_goesOn (by decide), exists_of_goesOn (by decide)⟩

theorem witness_StateRegisterWriters :
    (∃ t, exec (.add 3 1 (.reg 2)) base = .next t) ∧ writesIcc (.add 3 1 (.reg 2)) = false ∧
      writesY (.add 3 1 (.reg 2)) = false ∧ writesMemory (.add 3 1 (.reg 2)) = false ∧
      (∃ t, exec (.ldd 4 1 (.imm 0)) data = .next t) ∧ data.dmaPending = [] :=
  ⟨exists_of_goesOn (by decide), by decide, by decide, by decide, exists_of_goesOn (by decide), by decide⟩

/-- A user program at a word. -/
def userAt (w : Nat) (et : Bool) : State :=
  { inWindow 2 0 0 false with psr := { (inWindow 2 0 0 false).psr with et := et } }.withFetchWord 32 w

theorem witness_UserModeConfined :
    ((userAt 0x01000000 true).errorMode = false ∧ (userAt 0x01000000 true).inputs = [] ∧
        (userAt 0x01000000 true).dmaPending = [] ∧
        (userAt 0x01000000 true).psr.s = false) ∧
      (∃ t, step (userAt 0x01000000 true) = .next t) ∧ (∃ t, step (userAt 0x91D02048 true) = .next t) ∧
      ∃ t, step (userAt 0xAF480000 false) = .next t :=
  ⟨by decide, exists_of_goesOn (by decide), exists_of_goesOn (by decide), exists_of_goesOn (by decide)⟩

theorem witness_TrapThenReturnResumes :
    TrapsTaken base ∧ base.Inv ∧ base.wim.getLsbD base.psr.cwp.toNat = false ∧
      TrapEntered base (base.trapEntry 0xC8) 0xC8 :=
  ⟨base_trapsTaken, base_inv, by decide, trapEntry_entered base 0xC8⟩

theorem witness_DelayedWriteRefusals :
    ((pendingOf (psrWindow ⟨true, false, false, true, true, false⟩)).pending.psr ≠ 0 ∧
      (pendingOf (psrWindow ⟨true, false, false, true, true, false⟩)).pending.changed.icc = true ∧
      Cond.ne ≠ .a ∧ Cond.ne ≠ .n ∧
      (pendingOf (psrWindow ⟨true, false, false, true, true, false⟩)).pending.changed.et = true ∧
      (pendingOf (psrWindow ⟨true, false, false, true, false, false⟩)).pending.changed.ps = true) ∧
    ((pendingOf (psrWindow ⟨false, false, true, false, false, true⟩)).pending.changed.cwp = true ∧
      (pendingOf (psrWindow ⟨false, false, true, false, false, true⟩)).pending.changed.s = true ∧
      namesWindowed (.add 1 0 (.reg 8)) = true ∧ namesWindowed (.call 0) = true ∧
      namesWindowed (.sra 1 7 (.imm 8)) = false) ∧
    ((pendingOf { Pending.closed with wim := 1 }).pending.wim ≠ 0 ∧
      (pendingOf { Pending.closed with tbr := 3 }).pending.tbr ≠ 0 ∧
      (pendingOf { Pending.closed with y := 3 }).pending.y ≠ 0) ∧
    (let p := { psrWindow ⟨true, true, true, true, true, true⟩ with psr := 0, oldPil := 5 }
     (pendingOf p).pending.psr = 0 ∧ (pendingOf p).pending.wim = 0 ∧ (pendingOf p).pending.tbr = 0 ∧
      (pendingOf p).pending.y = 0 ∧ (pendingOf p).dctiPrev ≠ .cond) ∧
    (let p := psrWindow ⟨false, false, false, false, false, true⟩
     inOpenRow p (.add 1 2 (.reg 7)) = false ∧ inOpenRow p (.add 1 2 (.reg 8)) = true) ∧
    (let p := psrWindow ⟨false, false, false, false, true, false⟩
     inOpenRow p (.add 16 16 (.imm 1)) = false ∧ inOpenRow p (.rett 18 (.imm 4)) = true) ∧
    isDelayedTransfer (.add 1 2 (.reg 7)) = false := by decide

theorem witness_CompletionCountsOne :
    (∃ t, exec (.add 3 1 (.reg 2)) base = .next t) ∧ opensWindow (.add 3 1 (.reg 2)) = false ∧
      (uses (.add 3 1 (.reg 2))).dcti = false :=
  ⟨exists_of_goesOn (by decide), by decide, by decide⟩

theorem witness_DctiCoupleRefusals :
    { base with dctiPrev := .cond }.dctiPrev = DctiPrev.cond ∧
      (∃ t, base.errorMode = false ∧ exec (.be false 8) base = .next t) ∧
      inError (exec (.be false 8) base) = false ∧ ∃ t, exec (.call 4) base = .next t :=
  ⟨rfl, ⟨_, rfl, rfl⟩, by decide, exists_of_goesOn (by decide)⟩

theorem witness_EndOfRunLoops :
    let f := fun w : Nat => base.withFetchWord 32 w
    ((f 0x10800000).errorMode = false ∧ (f 0x10800000).inputs = [] ∧
      (f 0x10800000).dmaPending = [] ∧ (f 0x10800000).accessible (f 0x10800000).pc 4 = true ∧
      (f 0x10800000).fetchesStored = false ∧ (f 0x10800000).dctiPrev ≠ .cond ∧
      (f 0x10800000).npc = (f 0x10800000).pc + 4 ∧
      decodeBytes (f 0x10800000).cfg (f 0x10800000).fetchBytes = .instr (.ba false 0)) ∧
    decodeBytes (f 0x30800000).cfg (f 0x30800000).fetchBytes = .instr (.ba true 0) := by decide

end Sys2Proof.Tests
end

section
/-! The register windows overlap in a ring (10_state.md rules R22, R24 and R25): which physical registers two windows
share, and with it what a write through one window leaves to be read through another. -/

namespace Sys2Proof.Machine

/-! ## Where two windows meet -/

/-- Two numbers of r8 .. r31, each in its window, name one register exactly when their places in the ring agree. -/
theorem physReg_eq_iff_of_ge {n : NWindows} {w w' : BitVec 5} {i j : RegIdx} (hi : 8 ≤ i.toNat) (hj : 8 ≤ j.toNat) :
    physReg n w i = physReg n w' j ↔
      (16 * w.toNat + (i.toNat - 8)) % (16 * n.toNat) = (16 * w'.toNat + (j.toNat - 8)) % (16 * n.toNat) := by
  obtain ⟨_, ei⟩ := physReg_of_ge (n := n) (w := w) hi
  obtain ⟨_, ej⟩ := physReg_of_ge (n := n) (w := w') hj
  rw [ei, ej, PhysReg.windowed.injEq, Fin.mk.injEq]

/-- A global and a windowed register are two registers. -/
theorem physReg_ne_of_ge_of_lt {n : NWindows} {w w' : BitVec 5} {i j : RegIdx} (hi : 8 ≤ i.toNat) (hj : j.toNat < 8) :
    physReg n w i ≠ physReg n w' j := by
  obtain ⟨_, ei⟩ := physReg_of_ge (n := n) (w := w) hi
  rw [ei, physReg_of_lt hj]
  exact PhysReg.noConfusion

/-- The outs of a window are the ins of the window below it; below window 0 the ring closes. -/
theorem physReg_outs_eq_ins_below {n : NWindows} {w : BitVec 5} {k : RegIdx} (hw : w.toNat < n.toNat)
    (hk : k.toNat < 8) : physReg n w (8 + k) = physReg n (prevWindow n w) (24 + k) := by
  have hout : (8 + k).toNat = 8 + k.toNat := by bv_omega
  have hin : (24 + k).toNat = 24 + k.toNat := by bv_omega
  rw [physReg_eq_iff_of_ge (by omega) (by omega), hout, hin, prevWindow_toNat]
  by_cases h0 : w.toNat = 0
  · have hlast : (w.toNat + n.toNat - 1) % n.toNat = n.toNat - 1 := by
      rw [h0, Nat.zero_add, Nat.mod_eq_of_lt (by omega)]
    rw [hlast, show 16 * (n.toNat - 1) + (24 + k.toNat - 8) = 16 * w.toNat + (8 + k.toNat - 8) + 16 * n.toNat by omega,
      Nat.add_mod_right]
  · have hbelow : (w.toNat + n.toNat - 1) % n.toNat = w.toNat - 1 := by
      rw [show w.toNat + n.toNat - 1 = (w.toNat - 1) + n.toNat by omega, Nat.add_mod_right,
        Nat.mod_eq_of_lt (by omega)]
    rw [hbelow, show 16 * (w.toNat - 1) + (24 + k.toNat - 8) = 16 * w.toNat + (8 + k.toNat - 8) by omega]

/-- Places 8 .. 15 of a window's sixteen are its locals, and no wrap of the ring reaches them from another window:
the place modulo 16 fixes the number, and then the window. -/
theorem window_eq_of_local_index {n w w' k a : Nat} (hw : w < n) (hw' : w' < n) (hk : k < 8) (ha : a < 24)
    (h : (16 * w + (8 + k)) % (16 * n) = (16 * w' + a) % (16 * n)) : w' = w := by
  have hmod : (16 * w + (8 + k)) % 16 = (16 * w' + a) % 16 := by
    rw [← Nat.mod_mul_right_mod (16 * w + (8 + k)) 16 n, h, Nat.mod_mul_right_mod]
  have hplace : a = 8 + k := by omega
  rw [hplace, Nat.mod_eq_of_lt (by omega), Nat.mod_eq_of_lt (by omega)] at h
  omega

/-- No number of another window names a local register. -/
theorem physReg_local_ne {n : NWindows} {w w' : BitVec 5} {k i : RegIdx} (hw : w.toNat < n.toNat)
    (hw' : w'.toNat < n.toNat) (hk : k.toNat < 8) (hne : w' ≠ w) : physReg n w (16 + k) ≠ physReg n w' i := by
  have hlocal : (16 + k).toNat = 16 + k.toNat := by bv_omega
  by_cases hi : i.toNat < 8
  · exact physReg_ne_of_ge_of_lt (by omega) hi
  · rw [Ne, physReg_eq_iff_of_ge (by omega) (by omega), hlocal,
      show 16 + k.toNat - 8 = 8 + k.toNat by omega]
    exact fun h => hne (BitVec.eq_of_toNat_eq (window_eq_of_local_index hw hw' hk (by omega) h))

/-! ## Reads and writes through two windows -/

/-- A write to r0 is discarded in every window. -/
@[simp] theorem writeRegAt_zero (s : State) (w : BitVec 5) (v : Word) : s.writeRegAt w 0 v = s := rfl

/-- The globals do not depend on the window. -/
theorem readRegAt_global (s : State) (w w' : BitVec 5) {i : RegIdx} (h : i.toNat < 8) :
    s.readRegAt w i = s.readRegAt w' i := by
  simp only [State.readRegAt, physReg_of_lt h]

theorem readRegAt_outs_eq_ins_below (s : State) {w : BitVec 5} {k : RegIdx} (hw : w.toNat < s.cfg.nwindows.toNat)
    (hk : k.toNat < 8) : s.readRegAt w (8 + k) = s.readRegAt (prevWindow s.cfg.nwindows w) (24 + k) := by
  simp only [State.readRegAt, physReg_outs_eq_ins_below hw hk]

/-- A value written to an out is read as an in of the window below. -/
theorem readRegAt_ins_below_writeRegAt_outs (s : State) {w : BitVec 5} {k : RegIdx} (v : Word)
    (hw : w.toNat < s.cfg.nwindows.toNat) (hk : k.toNat < 8) :
    (s.writeRegAt w (8 + k) v).readRegAt (prevWindow s.cfg.nwindows w) (24 + k) = v := by
  have hne : 8 + k ≠ 0 := by bv_omega
  rw [readRegAt_writeRegAt, if_pos (physReg_outs_eq_ins_below hw hk), if_neg hne]

/-- A write to a local is seen through no other window. -/
theorem readRegAt_writeRegAt_local (s : State) {w w' : BitVec 5} {k : RegIdx} (i : RegIdx) (v : Word)
    (hw : w.toNat < s.cfg.nwindows.toNat) (hw' : w'.toNat < s.cfg.nwindows.toNat) (hk : k.toNat < 8) (hne : w' ≠ w) :
    (s.writeRegAt w (16 + k) v).readRegAt w' i = s.readRegAt w' i := by
  rw [readRegAt_writeRegAt, if_neg (physReg_local_ne hw hw' hk hne)]

/-- Settles O41: a window number that is one below w modulo NWINDOWS is `prevWindow`, and each clause is then a fact
about which physical registers two windows share. -/
theorem windowOverlap : Obligations.WindowOverlap := by
  intro s w v
  refine ⟨readRegAt_zero s w, writeRegAt_zero s w v, fun w' i hi => readRegAt_global s w w' hi, ?_,
    fun w' k i hw hw' hk hne => readRegAt_writeRegAt_local s i v hw hw' hk hne⟩
  intro below k hw hbelow hk
  obtain rfl : below = prevWindow s.cfg.nwindows w :=
    BitVec.eq_of_toNat_eq (hbelow.trans (prevWindow_toNat s.cfg.nwindows w).symm)
  exact ⟨readRegAt_outs_eq_ins_below s hw hk, readRegAt_ins_below_writeRegAt_outs s v hw hk⟩

end Sys2Proof.Machine
end

section
/-! Additions, plain and tagged, and the subtractions that leave icc (40_arithmetic.md rules R131, R133 to R137, R139, R142
and R143): how their words decode, what the tag check tests, what a tagged instruction that traps can do, and the flags
of a sum. -/

namespace Sys2Proof.Machine

/-! ## Decoding a row of the op = 10 map -/

/-- The decoder reads an op = 10 word by its op3. -/
theorem decode_encodeArith (cfg : Config) (op3 : BitVec 6) (rd rs1 : RegIdx) (o : Operand2) :
    decode cfg (encodeArith op3 rd rs1 o) = decodeArith cfg (encodeArith op3 rd rs1 o) := by
  simp only [decode, encodeArith, opField_format3]

/-- Where the op = 10 map has a row with rd, rs1 and operand 2 and no other reserved field, every word of the row
decodes to its fields (30_encoding.md rules R93 and R106). -/
theorem encodes3_of_row {cfg : Config} {op3 : BitVec 6} {k : RegIdx → RegIdx → Operand2 → Instr}
    (hrow : ∀ w, op3Field w = op3 → decodeArith cfg w = withOperand2 cfg w true (k (rdField w) (rs1Field w))) :
    Encodes3 cfg 2 op3 k := by
  have hdecode : ∀ rd rs1 o, decode cfg (encodeArith op3 rd rs1 o) = .instr (k rd rs1 o) := fun rd rs1 o => by
    rw [decode_encodeArith, encodeArith, hrow _ (op3Field_format3 ..), rdField_format3, rs1Field_format3,
      withOperand2_encode]
  exact fun rd rs1 => ⟨fun rs2 => hdecode rd rs1 (.reg rs2), fun simm13 => hdecode rd rs1 (.imm simm13)⟩

/-! ## What each instruction computes -/

section

variable (rd rs1 : RegIdx) (op2 : Operand2) (s : State)

theorem exec_add : exec (.add rd rs1 op2) s = writeResult rd (s.readReg rs1 + s.op2val op2) s := rfl

theorem exec_addcc : exec (.addcc rd rs1 op2) s =
    writeResultCc rd (s.readReg rs1 + s.op2val op2) (addFlags (s.readReg rs1) (s.op2val op2) false) s := rfl

theorem exec_addx : exec (.addx rd rs1 op2) s =
    writeResult rd (s.readReg rs1 + s.op2val op2 + carryWord s.psr.icc.c) s := rfl

theorem exec_addxcc : exec (.addxcc rd rs1 op2) s =
    writeResultCc rd (s.readReg rs1 + s.op2val op2 + carryWord s.psr.icc.c)
      (addFlags (s.readReg rs1) (s.op2val op2) s.psr.icc.c) s := rfl

theorem exec_sub : exec (.sub rd rs1 op2) s = writeResult rd (s.readReg rs1 - s.op2val op2) s := rfl

theorem exec_subx : exec (.subx rd rs1 op2) s =
    writeResult rd (s.readReg rs1 - s.op2val op2 - carryWord s.psr.icc.c) s := rfl

theorem exec_taddcc : exec (.taddcc rd rs1 op2) s =
    writeResultCc rd (s.readReg rs1 + s.op2val op2) (taggedAddFlags (s.readReg rs1) (s.op2val op2)) s := rfl

theorem exec_taddcctv : exec (.taddcctv rd rs1 op2) s =
    writeResultOrTagTrap rd (s.readReg rs1 + s.op2val op2) (taggedAddFlags (s.readReg rs1) (s.op2val op2)) s := rfl

end

/-! ## The shared meanings, without the hidden state -/

/-- A statement that does not speak of the hidden state follows from what the meaning computes. -/
theorem exists_yields_of_computes {r : Result} {s : State} {rd : RegIdx} {v : Word} {f : Icc} {y : Word}
    (h : ∃ t, r = .next t ∧ Computes s t rd v f y) : ∃ t, r = .next t ∧ Yields s t rd v f y := by
  obtain ⟨t, hr, hc⟩ := h
  exact ⟨t, hr, hc.toYields⟩

theorem writeResult_yields (rd : RegIdx) (v : Word) (s : State) :
    ∃ t, writeResult rd v s = .next t ∧ Yields s t rd v s.psr.icc s.y :=
  exists_yields_of_computes (writeResult_spec rd v s)

theorem writeResultCc_yields (rd : RegIdx) (v : Word) (f : Icc) (s : State) :
    ∃ t, writeResultCc rd v f s = .next t ∧ Yields s t rd v f s.y :=
  exists_yields_of_computes (writeResultCc_spec rd v f s)

/-! ## Tagged instructions -/

/-- A tag, the two low bits of a word, is zero when both bits are clear. -/
theorem tag_eq_zero_iff (a : Word) : a.extractLsb' 0 2 = 0 ↔ a.getLsbD 0 = false ∧ a.getLsbD 1 = false := by
  constructor
  · intro h
    exact ⟨by simpa using congrArg (·.getLsbD 0) h, by simpa using congrArg (·.getLsbD 1) h⟩
  · rintro ⟨h0, h1⟩
    apply BitVec.eq_of_getLsbD_eq
    intro i hi
    interval_cases i <;> simpa

theorem tag_bne_zero (a : Word) : (a.extractLsb' 0 2 != 0) = (a.getLsbD 0 || a.getLsbD 1) := by
  rw [Bool.eq_iff_iff, bne_iff_ne, Ne, tag_eq_zero_iff]
  cases a.getLsbD 0 <;> cases a.getLsbD 1 <;> decide

/-- `tag_bad` bit by bit (40_arithmetic.md rule R141). -/
theorem tagBad_eq (a b : Word) :
    tagBad a b = (a.getLsbD 0 || a.getLsbD 1 || b.getLsbD 0 || b.getLsbD 1) := by
  rw [tagBad, tag_bne_zero, tag_bne_zero, Bool.or_assoc (a.getLsbD 0 || a.getLsbD 1)]

/-- With V set, a tagged instruction that traps raises tag_overflow. -/
theorem writeResultOrTagTrap_overflow {f : Icc} (h : f.v = true) (rd : RegIdx) (v : Word) (s : State) :
    writeResultOrTagTrap rd v f s = raise .tagOverflow s := if_pos h

/-- With V clear, a tagged instruction that traps writes its result and the flags. -/
theorem writeResultOrTagTrap_completes {f : Icc} (h : f.v = false) (rd : RegIdx) (v : Word) (s : State) :
    ∃ t, writeResultOrTagTrap rd v f s = .next t ∧ Computes s t rd v { f with v := false } s.y := by
  have hf : { f with v := false } = f := by rw [← h]
  rw [writeResultOrTagTrap, if_neg (by simp [h]), hf]
  exact writeResultCc_spec rd v f s

/-! ## The flags of a sum -/

/-- V is set where the operands agree in sign and the result does not. -/
theorem signs_eq_and_bne (x y r : Bool) : (x == y && r != x) = decide (x = y ∧ r ≠ x) := by
  cases x <;> cases y <;> cases r <;> rfl

/-! ## The statements -/

/-- Settles O14: `addFlags` says the same of each flag, with the sign bit for bit 31. -/
theorem additionFlags : Obligations.AdditionFlags := by
  intro a b cin
  have hcin : cin.toNat = if cin then 1 else 0 := by cases cin <;> rfl
  simp only [addFlags, hcin, BitVec.msb_eq_getLsbD_last, signs_eq_and_bne, Bool.beq_eq_decide_eq _ (0 : Word)]

/-- Settles O7: each word is in a row of the op = 10 map, and each meaning is `writeResult` or `writeResultCc` of its
sum or difference. -/
theorem addAndSubtractRules : Obligations.AddAndSubtractRules := by
  refine ⟨fun cfg => ?encodings, fun s rd rs1 op2 => ?meanings⟩
  case encodings =>
    refine ⟨?_, ?_, ?_, ?_, ?_, ?_⟩ <;> exact encodes3_of_row fun w hw => by rw [decodeArith, hw]; rfl
  case meanings =>
    simp only [exec_add, exec_addcc, exec_addx, exec_addxcc, exec_sub, exec_subx]
    exact ⟨writeResult_yields .., writeResultCc_yields .., writeResult_yields .., writeResultCc_yields ..,
      writeResult_yields .., writeResult_yields ..⟩

/-- Settles O9: the flags of a tagged add are those of the sum with `tag_bad` in V, and V decides whether TADDccTV
traps. -/
theorem taggedAddRules : Obligations.TaggedAddRules := by
  refine ⟨fun cfg => ?encodings, fun s rd rs1 op2 => ?meanings⟩
  case encodings =>
    constructor <;> exact encodes3_of_row fun w hw => by rw [decodeArith, hw]; rfl
  case meanings =>
    simp only [exec_taddcc, exec_taddcctv, ← tagBad_eq]
    exact ⟨writeResultCc_yields .., fun hv => writeResultOrTagTrap_overflow hv ..,
      fun hv => exists_yields_of_computes (writeResultOrTagTrap_completes hv ..)⟩

end Sys2Proof.Machine
end

section
/-! The logical instructions that leave icc and the shifts (41_logical_shift_sethi.md rules R171 to R187): how a shift's
word decodes, what each instruction computes, and the shifts as multiplication and division by a power of two. -/

namespace Sys2Proof.Machine

/-! ## Decoding a shift -/

/-- Where the op = 10 map has a shift's row, every word of the row decodes to its fields (30_encoding.md rules R102 and
R106). -/
theorem encodesShift_of_row {cfg : Config} {op3 : BitVec 6} {k : RegIdx → RegIdx → ShiftCount → Instr}
    (hrow : ∀ w, op3Field w = op3 → decodeArith cfg w = withShiftCount cfg w (k (rdField w) (rs1Field w))) :
    EncodesShift cfg op3 k := by
  have hdecode : ∀ rd rs1 cnt, decode cfg (encodeShift op3 rd rs1 cnt) = .instr (k rd rs1 cnt) := fun rd rs1 cnt => by
    have harith : decode cfg (encodeShift op3 rd rs1 cnt) = decodeArith cfg (encodeShift op3 rd rs1 cnt) := by
      simp only [decode, encodeShift, opField_format3]
    rw [harith, encodeShift, hrow _ (op3Field_format3 ..), rdField_format3, rs1Field_format3, withShiftCount_encode]
  exact fun rd rs1 => ⟨fun rs2 => hdecode rd rs1 (.reg rs2), fun shcnt => hdecode rd rs1 (.imm shcnt)⟩

/-! ## What each instruction computes -/

section

variable (rd rs1 : RegIdx) (op2 : Operand2) (cnt : ShiftCount) (s : State)

theorem exec_and : exec (.and rd rs1 op2) s = writeResult rd (s.readReg rs1 &&& s.op2val op2) s := rfl

theorem exec_or : exec (.or rd rs1 op2) s = writeResult rd (s.readReg rs1 ||| s.op2val op2) s := rfl

theorem exec_xor : exec (.xor rd rs1 op2) s = writeResult rd (s.readReg rs1 ^^^ s.op2val op2) s := rfl

theorem exec_andn : exec (.andn rd rs1 op2) s = writeResult rd (s.readReg rs1 &&& ~~~(s.op2val op2)) s := rfl

theorem exec_orn : exec (.orn rd rs1 op2) s = writeResult rd (s.readReg rs1 ||| ~~~(s.op2val op2)) s := rfl

theorem exec_xnor : exec (.xnor rd rs1 op2) s = writeResult rd (~~~(s.readReg rs1 ^^^ s.op2val op2)) s := rfl

theorem exec_sll : exec (.sll rd rs1 cnt) s = writeResult rd (s.readReg rs1 <<< (s.shiftCount cnt).toNat) s := rfl

theorem exec_srl : exec (.srl rd rs1 cnt) s = writeResult rd (s.readReg rs1 >>> (s.shiftCount cnt).toNat) s := rfl

theorem exec_sra : exec (.sra rd rs1 cnt) s =
    writeResult rd ((s.readReg rs1).sshiftRight (s.shiftCount cnt).toNat) s := rfl

end

/-! ## Shifts as arithmetic -/

/-- The low five bits of a register are its value modulo 32 (41_logical_shift_sethi.md rule R184). -/
theorem shiftCount_reg_toNat (s : State) (rs2 : RegIdx) :
    (s.shiftCount (.reg rs2)).toNat = (s.readReg rs2).toNat % 32 :=
  BitVec.extractLsb'_toNat 0 5 (s.readReg rs2)

theorem shiftLeft_eq_mul_two_pow (a : Word) (n : Nat) : a <<< n = BitVec.ofNat 32 (a.toNat * 2 ^ n) := by
  apply BitVec.eq_of_toNat_eq
  rw [BitVec.toNat_shiftLeft, BitVec.toNat_ofNat, Nat.shiftLeft_eq]

theorem ushiftRight_eq_div_two_pow (a : Word) (n : Nat) : a >>> n = BitVec.ofNat 32 (a.toNat / 2 ^ n) := by
  rw [← Nat.shiftRight_eq_div_pow, ← BitVec.toNat_ushiftRight, BitVec.ofNat_toNat, BitVec.setWidth_eq]

/-- The arithmetic shift rounds the signed quotient down, as `Int` division by a positive number does. -/
theorem sshiftRight_eq_div_two_pow (a : Word) (n : Nat) : a.sshiftRight n = BitVec.ofInt 32 (a.toInt / 2 ^ n) := by
  have hquotient : (a.sshiftRight n).toInt = a.toInt / 2 ^ n := by
    rw [BitVec.toInt_sshiftRight, Int.shiftRight_eq_div_pow, Nat.cast_pow, Nat.cast_ofNat]
  rw [← hquotient, BitVec.ofInt_toInt]

/-! ## The statements -/

/-- Settles O19: each word is in a row of the op = 10 map, and each meaning is `writeResult` of its bitwise result. -/
theorem logicalRules : Obligations.LogicalRules := by
  refine ⟨fun cfg => ?encodings, fun s rd rs1 op2 => ?meanings⟩
  case encodings =>
    refine ⟨?_, ?_, ?_, ?_, ?_, ?_⟩ <;> exact encodes3_of_row fun w hw => by rw [decodeArith, hw]; rfl
  case meanings =>
    simp only [exec_and, exec_or, exec_xor, exec_andn, exec_orn, exec_xnor]
    exact ⟨writeResult_yields .., writeResult_yields .., writeResult_yields .., writeResult_yields ..,
      writeResult_yields .., writeResult_yields ..⟩

/-- Settles O21: each word is in a row of the op = 10 map, and each meaning is `writeResult` of a shift by the count's
value, which is a product or quotient by a power of two. -/
theorem shiftRules : Obligations.ShiftRules := by
  refine ⟨fun cfg => ?encodings, fun s rd rs1 cnt => ?meanings⟩
  case encodings =>
    refine ⟨?_, ?_, ?_⟩ <;> exact encodesShift_of_row fun w hw => by rw [decodeArith, hw]; rfl
  case meanings =>
    intro a n
    have hcount : (s.shiftCount cnt).toNat = n := by
      cases cnt with
      | reg rs2 => exact shiftCount_reg_toNat s rs2
      | imm shcnt => rfl
    rw [exec_sll, exec_srl, exec_sra, hcount, shiftLeft_eq_mul_two_pow, ushiftRight_eq_div_two_pow,
      sshiftRight_eq_div_two_pow]
    exact ⟨writeResult_yields .., writeResult_yields .., writeResult_yields ..⟩

end Sys2Proof.Machine
end

section
/-! What an instruction can do, said once for all of them: it raises a trap, or it is a RETT that fails with ET = 0, or it
completes in one of the ways of `Completes` (00_scope.md rules R12 and R13, 60_exceptions.md rule R336). Every statement
about all instructions is read off this list. -/

namespace Sys2Proof.Machine

/-! ## Delayed control transfers -/

/-- The delayed control transfers are the sixteen branches, CALL, JMPL and RETT (43_branch.md rule R240). -/
theorem isDelayedTransfer_iff (i : Instr) : isDelayedTransfer i = true ↔
    (∃ k a disp22, i = branchOf k a disp22) ∨ (∃ disp30, i = .call disp30) ∨ (∃ rd rs1 op2, i = .jmpl rd rs1 op2) ∨
      ∃ rs1 op2, i = .rett rs1 op2 := by
  constructor
  · intro h
    cases i
    case ba a disp22 => exact .inl ⟨.a, a, disp22, rfl⟩
    case bn a disp22 => exact .inl ⟨.n, a, disp22, rfl⟩
    case bne a disp22 => exact .inl ⟨.ne, a, disp22, rfl⟩
    case be a disp22 => exact .inl ⟨.e, a, disp22, rfl⟩
    case bg a disp22 => exact .inl ⟨.g, a, disp22, rfl⟩
    case ble a disp22 => exact .inl ⟨.le, a, disp22, rfl⟩
    case bge a disp22 => exact .inl ⟨.ge, a, disp22, rfl⟩
    case bl a disp22 => exact .inl ⟨.l, a, disp22, rfl⟩
    case bgu a disp22 => exact .inl ⟨.gu, a, disp22, rfl⟩
    case bleu a disp22 => exact .inl ⟨.leu, a, disp22, rfl⟩
    case bcc a disp22 => exact .inl ⟨.cc, a, disp22, rfl⟩
    case bcs a disp22 => exact .inl ⟨.cs, a, disp22, rfl⟩
    case bpos a disp22 => exact .inl ⟨.pos, a, disp22, rfl⟩
    case bneg a disp22 => exact .inl ⟨.neg, a, disp22, rfl⟩
    case bvc a disp22 => exact .inl ⟨.vc, a, disp22, rfl⟩
    case bvs a disp22 => exact .inl ⟨.vs, a, disp22, rfl⟩
    case call disp30 => exact .inr (.inl ⟨disp30, rfl⟩)
    case jmpl rd rs1 op2 => exact .inr (.inr (.inl ⟨rd, rs1, op2, rfl⟩))
    case rett rs1 op2 => exact .inr (.inr (.inr ⟨rs1, op2, rfl⟩))
    all_goals exact nomatch h
  · rintro (⟨k, a, disp22, rfl⟩ | ⟨disp30, rfl⟩ | ⟨rd, rs1, op2, rfl⟩ | ⟨rs1, op2, rfl⟩)
    · cases k <;> rfl
    · rfl
    · rfl
    · rfl

theorem isDelayedTransfer_branchOf (k : Cond) (a : Bool) (disp22 : BitVec 22) :
    isDelayedTransfer (branchOf k a disp22) = true := (isDelayedTransfer_iff _).2 (.inl ⟨k, a, disp22, rfl⟩)

/-! ## The ways to complete -/

/-- The state after a store of the program, before anything else of the instruction. -/
inductive Stored (s : State) : State → Prop
  | byte (a : Word) (b : Byte) : Stored s (s.storeByte a b)
  | half (a : Word) (v : BitVec 16) : Stored s (s.storeHalf a v)
  | word (a v : Word) : Stored s (s.storeWord a v)
  | double (a v u : Word) : Stored s (s.storeDouble a v u)

/-- How an instruction completes from s, with the state it leaves and what the checks before its effect have found. -/
inductive Completes (s : State) : Instr → State → Prop
  | computes {i : Instr} (rd : RegIdx) (v : Word) (f : Icc) (y : Word) (hicc : writesIcc i = false → f = s.psr.icc)
      (hy : writesY i = false → y = s.y) (hdcti : isDelayedTransfer i = false) :
      Completes s i (((s.writeReg rd v).setY y).setIcc f).advance
  | stores {i : Instr} {u : State} (rd : RegIdx) (v : Word) (hi : writesMemory i = true) (hu : Stored s u) :
      Completes s i (u.writeReg rd v).advance
  | loadsDouble (rd rs1 : RegIdx) (op2 : Operand2) (v u : Word) :
      Completes s (.ldd rd rs1 op2) ((s.landDma.writeReg rd v).writeReg (rd + 1) u).advance
  | branches (k : Cond) (a : Bool) (disp22 : BitVec 22) {t : State} (h : bicc k a disp22 s = .next t) :
      Completes s (branchOf k a disp22) t
  | calls (disp30 : BitVec 30) :
      Completes s (.call disp30) ((s.writeReg 15 s.pc).complete s.npc (s.callTarget disp30) .uncond)
  | jumps (rd rs1 : RegIdx) (op2 : Operand2) (htarget : aligned 4 (s.address rs1 op2) = true) :
      Completes s (.jmpl rd rs1 op2) ((s.writeReg rd s.pc).complete s.npc (s.address rs1 op2) .uncond)
  | saves (rd rs1 : RegIdx) (op2 : Operand2) {t : State}
      (h : moveWindow (prevWindow s.cfg.nwindows s.psr.cwp) rd (s.address rs1 op2) s = .next t) :
      Completes s (.save rd rs1 op2) t
  | restores (rd rs1 : RegIdx) (op2 : Operand2) {t : State}
      (h : moveWindow (nextWindow s.cfg.nwindows s.psr.cwp) rd (s.address rs1 op2) s = .next t) :
      Completes s (.restore rd rs1 op2) t
  | returns (rs1 : RegIdx) (op2 : Operand2) (hs : s.psr.s = true) (htarget : aligned 4 (s.address rs1 op2) = true) :
      Completes s (.rett rs1 op2) (s.returnFromTrap (s.address rs1 op2))
  | setsPsr (rs1 : RegIdx) (op2 : Operand2) (hs : s.psr.s = true)
      (hcwp : (Psr.ofWord (s.writeValue rs1 op2)).cwp.toNat < s.cfg.nwindows.toNat) :
      Completes s (.wrpsr rs1 op2)
        (({ s with psr := Psr.ofWord (s.writeValue rs1 op2) } : State).advance.openPsrWindow s.psr)
  | setsWim (rs1 : RegIdx) (op2 : Operand2) (hs : s.psr.s = true) :
      Completes s (.wrwim rs1 op2)
        ({ s with wim := s.writeValue rs1 op2 &&& windowMask s.cfg.nwindows } : State).advance.openWimWindow
  | setsTbr (rs1 : RegIdx) (op2 : Operand2) (hs : s.psr.s = true) :
      Completes s (.wrtbr rs1 op2)
        ({ s with tbr := { s.tbr with tba := (s.writeValue rs1 op2).extractLsb' 12 20 } } : State).advance.openTbrWindow
  | setsY (rs1 : RegIdx) (op2 : Operand2) :
      Completes s (.wry rs1 op2) (s.setY (s.writeValue rs1 op2)).advance.openYWindow

/-- An outcome the instruction i can have in s. -/
def MayAnswer (s : State) (i : Instr) (r : Result) : Prop :=
  (∃ trap, r = raise trap s) ∨
    ((∃ rs1 op2, i = .rett rs1 op2) ∧ s.psr.et = false ∧ r = .next s.enterErrorMode) ∨
      ∃ t, r = .next t ∧ Completes s i t

/-! ## What each shared meaning can answer -/

section

variable {s : State} {i : Instr}

theorem MayAnswer.raises (trap : Trap) : MayAnswer s i (raise trap s) := .inl ⟨trap, rfl⟩

theorem MayAnswer.completes {t : State} (h : Completes s i t) : MayAnswer s i (.next t) := .inr (.inr ⟨t, rfl, h⟩)

theorem MayAnswer.advances (hd : isDelayedTransfer i = false) : MayAnswer s i (.next s.advance) :=
  .completes (.computes 0 0 s.psr.icc s.y (fun _ => rfl) (fun _ => rfl) hd)

theorem MayAnswer.writeResult {rd : RegIdx} {v : Word} (hd : isDelayedTransfer i = false) :
    MayAnswer s i (writeResult rd v s) :=
  .completes (.computes rd v s.psr.icc s.y (fun _ => rfl) (fun _ => rfl) hd)

theorem MayAnswer.writeResultCc {rd : RegIdx} {v : Word} {f : Icc} (hf : writesIcc i = true)
    (hd : isDelayedTransfer i = false) : MayAnswer s i (writeResultCc rd v f s) :=
  .completes (.computes rd v f s.y (fun h => absurd h (by simp [hf])) (fun _ => rfl) hd)

theorem MayAnswer.writeResultOrTagTrap {rd : RegIdx} {v : Word} {f : Icc} (hf : writesIcc i = true)
    (hd : isDelayedTransfer i = false) : MayAnswer s i (writeResultOrTagTrap rd v f s) := by
  rw [Machine.writeResultOrTagTrap]
  split
  · exact .raises _
  · exact .writeResultCc hf hd

theorem MayAnswer.writeProduct {rd : RegIdx} {p : BitVec 64} (hy : writesY i = true)
    (hd : isDelayedTransfer i = false) : MayAnswer s i (writeProduct rd p s) :=
  .completes (.computes rd (lowWord p) s.psr.icc (highWord p) (fun _ => rfl) (fun h => absurd h (by simp [hy])) hd)

/-- The instructions that write x[rd], icc and Y: the multiplies that leave icc and the multiply step. -/
theorem MayAnswer.writeAll {rd : RegIdx} {v y : Word} {f : Icc} (hf : writesIcc i = true)
    (hy : writesY i = true) (hd : isDelayedTransfer i = false) :
    MayAnswer s i (.next (((s.writeReg rd v).setY y).setIcc f).advance) :=
  .completes (.computes rd v f y (fun h => absurd h (by simp [hf])) (fun h => absurd h (by simp [hy])) hd)

theorem MayAnswer.divideBy {b : Word} {k : Result} (h : MayAnswer s i k) : MayAnswer s i (divideBy b s k) := by
  rw [Machine.divideBy]
  split
  · exact .raises _
  · exact h

theorem MayAnswer.withAccess {n : Nat} {ea : Word} {done : State} (h : MayAnswer s i (.next done)) :
    MayAnswer s i (withAccess n ea s done) := by
  rw [Machine.withAccess]
  split
  · exact .raises _
  · split
    · exact .raises _
    · exact h

theorem MayAnswer.loadValue {n : Nat} {ea : Word} {rd : RegIdx} {v : Word} (hd : isDelayedTransfer i = false) :
    MayAnswer s i (loadValue n ea rd v s) := .withAccess (.writeResult hd)

theorem MayAnswer.evenPair {rd : RegIdx} {k : Result} (h : MayAnswer s i k) : MayAnswer s i (evenPair rd s k) := by
  rw [Machine.evenPair]
  split
  · exact .raises _
  · exact h

/-- A store that changes no register: r0 discards what is written to it. -/
theorem MayAnswer.stores {u : State} (hi : writesMemory i = true) (hu : Stored s u) : MayAnswer s i (.next u.advance) :=
  .completes (.stores 0 0 hi hu)

theorem MayAnswer.privileged {k : Result} (h : s.psr.s = true → MayAnswer s i k) : MayAnswer s i (privileged s k) := by
  rw [Machine.privileged]
  split
  next hs => exact h hs
  next => exact .raises _

theorem MayAnswer.ticc {k : Cond} {rs1 : RegIdx} {num : TrapNumber} (hd : isDelayedTransfer i = false) :
    MayAnswer s i (ticc k rs1 num s) := by
  rw [Machine.ticc]
  split
  · exact .raises _
  · exact .advances hd

end

theorem mayAnswer_branchOf (s : State) (k : Cond) (a : Bool) (disp22 : BitVec 22) :
    MayAnswer s (branchOf k a disp22) (bicc k a disp22 s) := by
  obtain ⟨t, ht, _⟩ := bicc_spec k a disp22 s
  rw [ht]
  exact .completes (.branches k a disp22 ht)

theorem mayAnswer_jmpl (s : State) (rd rs1 : RegIdx) (op2 : Operand2) :
    MayAnswer s (.jmpl rd rs1 op2) (execJmpl rd rs1 op2 s) := by
  rw [execJmpl]
  split
  next => exact .raises _
  next h => exact .completes (.jumps rd rs1 op2 (by simpa using h))

theorem mayAnswer_save (s : State) (rd rs1 : RegIdx) (op2 : Operand2) :
    MayAnswer s (.save rd rs1 op2) (execSave rd rs1 op2 s) := by
  rw [execSave]
  split
  · exact .raises _
  · exact .completes (.saves rd rs1 op2 rfl)

theorem mayAnswer_restore (s : State) (rd rs1 : RegIdx) (op2 : Operand2) :
    MayAnswer s (.restore rd rs1 op2) (execRestore rd rs1 op2 s) := by
  rw [execRestore]
  split
  · exact .raises _
  · exact .completes (.restores rd rs1 op2 rfl)

theorem mayAnswer_rett (s : State) (rs1 : RegIdx) (op2 : Operand2) :
    MayAnswer s (.rett rs1 op2) (execRett rs1 op2 s) := by
  have fails : s.psr.et = false → MayAnswer s (.rett rs1 op2) (.next s.enterErrorMode) :=
    fun he => .inr (.inl ⟨⟨rs1, op2, rfl⟩, he, rfl⟩)
  rw [execRett]
  by_cases he : s.psr.et = true
  · rw [if_pos he]
    split
    · exact .raises _
    · exact .raises _
  · rw [if_neg he]
    have he : s.psr.et = false := by simpa using he
    split
    next => exact fails he
    next hs =>
      split
      next => exact fails he
      next =>
        split
        next => exact fails he
        next ha => exact .completes (.returns rs1 op2 (by simpa using hs) (by simpa using ha))

theorem mayAnswer_wrpsr (s : State) (rs1 : RegIdx) (op2 : Operand2) :
    MayAnswer s (.wrpsr rs1 op2) (execWrpsr rs1 op2 s) := by
  refine .privileged fun hs => ?_
  split
  next => exact .raises _
  next h => exact .completes (.setsPsr rs1 op2 hs (by omega))

/-! ## Every instruction -/

/-- Every instruction, from every state, has one of the outcomes of `MayAnswer`. -/
theorem exec_mayAnswer (i : Instr) (s : State) : MayAnswer s i (exec i s) := by
  by_cases hd : isDelayedTransfer i = true
  · rcases (isDelayedTransfer_iff i).1 hd with ⟨k, a, disp22, rfl⟩ | ⟨disp30, rfl⟩ | ⟨rd, rs1, op2, rfl⟩ | ⟨rs1, op2, rfl⟩
    · rw [exec_branchOf]
      exact mayAnswer_branchOf s k a disp22
    · exact .completes (.calls disp30)
    · exact mayAnswer_jmpl s rd rs1 op2
    · exact mayAnswer_rett s rs1 op2
  cases i
  case call | jmpl | rett => exact absurd rfl hd
  case ba | bn | bne | be | bg | ble | bge | bl | bgu | bleu | bcc | bcs | bpos | bneg | bvc | bvs => exact absurd rfl hd
  case nop => exact .advances rfl
  case unimp | rdasr | wrasr => exact .raises _
  case save rd rs1 op2 => exact mayAnswer_save s rd rs1 op2
  case restore rd rs1 op2 => exact mayAnswer_restore s rd rs1 op2
  case sethi | add | addx | sub | subx | and | or | xor | andn | orn | xnor | sll | srl | sra | rdy =>
    exact .writeResult rfl
  case addcc | addxcc | subcc | subxcc | taddcc | tsubcc | andcc | orcc | xorcc | andncc | orncc | xnorcc =>
    exact .writeResultCc rfl rfl
  case taddcctv | tsubcctv => exact .writeResultOrTagTrap rfl rfl
  case mulscc | umulcc | smulcc => exact .writeAll rfl rfl rfl
  case umul | smul => exact .writeProduct rfl rfl
  case udiv | sdiv => exact .divideBy (.writeResult rfl)
  case udivcc | sdivcc => exact .divideBy (.writeResultCc rfl rfl)
  case ldsb | ldub | ldsh | lduh | ld => exact .loadValue rfl
  case ldd rd rs1 op2 => exact .evenPair (.withAccess (.completes (.loadsDouble rd rs1 op2 _ _)))
  case stb => exact .withAccess (.stores rfl (.byte _ _))
  case sth => exact .withAccess (.stores rfl (.half _ _))
  case st => exact .withAccess (.stores rfl (.word _ _))
  case std => exact .evenPair (.withAccess (.stores rfl (.double _ _ _)))
  case ldstub => exact .withAccess (.completes (.stores _ _ rfl (.byte _ _)))
  case swap => exact .withAccess (.completes (.stores _ _ rfl (.word _ _)))
  case ta rs1 num => exact .ticc (k := .a) (rs1 := rs1) (num := num) rfl
  case tn rs1 num => exact .ticc (k := .n) (rs1 := rs1) (num := num) rfl
  case tne | te | tg | tle | tge | tl | tgu | tleu | tcc | tcs | tpos | tneg | tvc | tvs => exact .ticc rfl
  case rdpsr | rdwim | rdtbr => exact .privileged fun _ => .writeResult rfl
  case wrpsr rs1 op2 => exact mayAnswer_wrpsr s rs1 op2
  case wrwim rs1 op2 => exact .privileged fun hs => .completes (.setsWim rs1 op2 hs)
  case wrtbr rs1 op2 => exact .privileged fun hs => .completes (.setsTbr rs1 op2 hs)
  case wry rs1 op2 => exact .completes (.setsY rs1 op2)

/-- Where an instruction answers a next state it has entered a trap, is in error mode, or has completed. -/
theorem exec_next {i : Instr} {s t : State} (h : exec i s = .next t) :
    (∃ trap : Trap, TrapsTaken s ∧ t = s.trapEntry trap.tt) ∨ (s.psr.et = false ∧ t = s.enterErrorMode) ∨
      Completes s i t := by
  rcases exec_mayAnswer i s with ⟨trap, e⟩ | ⟨_, he, e⟩ | ⟨u, e, hc⟩
  · rcases raise_next (e.symm.trans h) with ⟨he, ht⟩ | ⟨htaken, ht⟩
    · exact .inr (.inl ⟨he, ht⟩)
    · exact .inl ⟨trap, htaken, ht⟩
  · rw [h] at e
    cases e
    exact .inr (.inl ⟨he, rfl⟩)
  · rw [h] at e
    cases e
    exact .inr (.inr hc)

/-- An instruction is refused only by a trap it raises inside a delayed-write window. -/
theorem exec_refused {i : Instr} {s : State} {r : Refusal} (h : exec i s = .refused r) :
    ∃ w, r = .trapInDelayedWrite w := by
  rcases exec_mayAnswer i s with ⟨trap, e⟩ | ⟨_, _, e⟩ | ⟨t, e, _⟩
  · rw [e] at h
    rcases raise_cases trap s with ⟨_, e⟩ | ⟨_, _, e⟩ | ⟨_, _, _, e⟩ | ⟨_, e⟩ <;> rw [e] at h <;> cases h
    · exact ⟨.psr, rfl⟩
    · exact ⟨.tbr, rfl⟩
  · rw [e] at h
    cases h
  · rw [e] at h
    cases h

end Sys2Proof.Machine
end

section
/-! What every instruction leaves as it was (10_state.md rules R26 to R39, 20_memory.md rule R60, 70_reset_and_hazards.md
rule R380(b)), read off the list of the ways to complete. -/

namespace Sys2Proof.Machine

/-! ## What each way to complete changes -/

/-- u is s but for memory, the record of stores and the DMA writes under way. -/
def MemoryChanged (s u : State) : Prop := ∃ m l d, u = { s with mem := m, storedTo := l, dmaPending := d }

theorem MemoryChanged.trans {s u v : State} (h : MemoryChanged s u) (h' : MemoryChanged u v) : MemoryChanged s v := by
  obtain ⟨_, _, _, rfl⟩ := h
  obtain ⟨m, l, d, rfl⟩ := h'
  exact ⟨m, l, d, rfl⟩

theorem storeByte_memoryChanged (s : State) (a : Word) (b : Byte) : MemoryChanged s (s.storeByte a b) := ⟨_, _, _, rfl⟩

theorem landDma_memoryChanged (s : State) : MemoryChanged s s.landDma := ⟨_, s.storedTo, _, rfl⟩

theorem storeHalf_memoryChanged (s : State) (a : Word) (v : BitVec 16) : MemoryChanged s (s.storeHalf a v) :=
  (storeByte_memoryChanged ..).trans (storeByte_memoryChanged ..)

theorem storeWord_memoryChanged (s : State) (a v : Word) : MemoryChanged s (s.storeWord a v) :=
  (((storeByte_memoryChanged ..).trans (storeByte_memoryChanged ..)).trans (storeByte_memoryChanged ..)).trans
    (storeByte_memoryChanged ..)

theorem storeDouble_memoryChanged (s : State) (a v u : Word) : MemoryChanged s (s.storeDouble a v u) :=
  ((storeWord_memoryChanged ..).trans (landDma_memoryChanged _)).trans (storeWord_memoryChanged ..)

/-- A store changes memory, the record of stores and the DMA under way, and nothing else. -/
theorem Stored.memoryChanged {s u : State} (h : Stored s u) : MemoryChanged s u := by
  cases h with
  | byte a b => exact storeByte_memoryChanged s a b
  | half a v => exact storeHalf_memoryChanged s a v
  | word a v => exact storeWord_memoryChanged s a v
  | double a v u => exact storeDouble_memoryChanged s a v u

/-- The four cases of a branch, as the state they answer. -/
theorem bicc_next {k : Cond} {a : Bool} {disp22 : BitVec 22} {s t : State} (h : bicc k a disp22 s = .next t) :
    (t = s.complete (s.branchTarget disp22) (s.branchTarget disp22 + 4) .none ∧ k = .a ∧ a = true) ∨
    (t = s.complete s.npc (s.branchTarget disp22) (if k = .a then .uncond else .cond) ∧
      condTrue k s.psr.icc = true ∧ ¬(k = .a ∧ a = true)) ∨
    (t = s.complete (s.npc + 4) (s.npc + 8) .none ∧ condTrue k s.psr.icc = false ∧ a = true) ∨
    (t = s.complete s.npc (s.npc + 4) .cond ∧ condTrue k s.psr.icc = false ∧ a = false) := by
  simp only [bicc] at h
  by_cases hcond : condTrue k s.psr.icc = true
  · by_cases hba : k = .a ∧ a = true
    · rw [if_pos hcond, if_pos hba] at h
      exact .inl ⟨(Host.Outcome.next.inj h).symm, hba⟩
    · rw [if_pos hcond, if_neg hba] at h
      exact .inr (.inl ⟨(Host.Outcome.next.inj h).symm, hcond, hba⟩)
  · have huntaken : condTrue k s.psr.icc = false := by simpa using hcond
    cases a with
    | true =>
      rw [if_neg hcond, if_pos rfl] at h
      exact .inr (.inr (.inl ⟨(Host.Outcome.next.inj h).symm, huntaken, rfl⟩))
    | false =>
      rw [if_neg hcond, if_neg Bool.false_ne_true] at h
      exact .inr (.inr (.inr ⟨(Host.Outcome.next.inj h).symm, huntaken, rfl⟩))

/-- A branch changes PC, nPC, the history and the counts of the delayed-write windows. -/
theorem bicc_frame {k : Cond} {a : Bool} {disp22 : BitVec 22} {s t : State} (h : bicc k a disp22 s = .next t) :
    ∃ pc npc d, t = s.complete pc npc d := by
  rcases bicc_next h with ⟨rfl, _⟩ | ⟨rfl, _⟩ | ⟨rfl, _⟩ | ⟨rfl, _⟩ <;> exact ⟨_, _, _, rfl⟩

theorem moveWindow_next {w : BitVec 5} {rd : RegIdx} {v : Word} {s t : State} (h : moveWindow w rd v s = .next t) :
    t = (({ s with psr := { s.psr with cwp := w } } : State).writeRegAt w rd v).advance :=
  (Host.Outcome.next.inj h).symm

/-! ## State registers -/

section

variable {i : Instr} {s t : State}

theorem Completes.icc_eq (h : Completes s i t) (hi : writesIcc i = false) : t.psr.icc = s.psr.icc := by
  cases h with
  | computes rd v f y hicc hy hdcti => exact hicc hi
  | stores rd v hm hu => obtain ⟨m, l, d, rfl⟩ := hu.memoryChanged; rfl
  | branches k a disp22 hb => obtain ⟨pc, npc, d, rfl⟩ := bicc_frame hb; rfl
  | saves rd rs1 op2 hw => rw [moveWindow_next hw]; rfl
  | restores rd rs1 op2 hw => rw [moveWindow_next hw]; rfl
  | setsPsr rs1 op2 hs hcwp => exact nomatch hi
  | _ => rfl

theorem Completes.y_eq (h : Completes s i t) (hi : writesY i = false) : t.y = s.y := by
  cases h with
  | computes rd v f y hicc hy hdcti => exact hy hi
  | stores rd v hm hu => obtain ⟨m, l, d, rfl⟩ := hu.memoryChanged; rfl
  | branches k a disp22 hb => obtain ⟨pc, npc, d, rfl⟩ := bicc_frame hb; rfl
  | saves rd rs1 op2 hw => rw [moveWindow_next hw]; rfl
  | restores rd rs1 op2 hw => rw [moveWindow_next hw]; rfl
  | setsY rs1 op2 => exact nomatch hi
  | _ => rfl

theorem Completes.wim_eq (h : Completes s i t) (hi : ∀ rs1 op2, i ≠ .wrwim rs1 op2) : t.wim = s.wim := by
  cases h with
  | stores rd v hm hu => obtain ⟨m, l, d, rfl⟩ := hu.memoryChanged; rfl
  | branches k a disp22 hb => obtain ⟨pc, npc, d, rfl⟩ := bicc_frame hb; rfl
  | saves rd rs1 op2 hw => rw [moveWindow_next hw]; rfl
  | restores rd rs1 op2 hw => rw [moveWindow_next hw]; rfl
  | setsWim rs1 op2 hs => exact absurd rfl (hi rs1 op2)
  | _ => rfl

theorem Completes.tbr_eq (h : Completes s i t) (hi : ∀ rs1 op2, i ≠ .wrtbr rs1 op2) : t.tbr = s.tbr := by
  cases h with
  | stores rd v hm hu => obtain ⟨m, l, d, rfl⟩ := hu.memoryChanged; rfl
  | branches k a disp22 hb => obtain ⟨pc, npc, d, rfl⟩ := bicc_frame hb; rfl
  | saves rd rs1 op2 hw => rw [moveWindow_next hw]; rfl
  | restores rd rs1 op2 hw => rw [moveWindow_next hw]; rfl
  | setsTbr rs1 op2 hs => exact absurd rfl (hi rs1 op2)
  | _ => rfl

theorem Completes.pil_eq (h : Completes s i t) (hi : ∀ rs1 op2, i ≠ .wrpsr rs1 op2) : t.psr.pil = s.psr.pil := by
  cases h with
  | stores rd v hm hu => obtain ⟨m, l, d, rfl⟩ := hu.memoryChanged; rfl
  | branches k a disp22 hb => obtain ⟨pc, npc, d, rfl⟩ := bicc_frame hb; rfl
  | saves rd rs1 op2 hw => rw [moveWindow_next hw]; rfl
  | restores rd rs1 op2 hw => rw [moveWindow_next hw]; rfl
  | setsPsr rs1 op2 hs hcwp => exact absurd rfl (hi rs1 op2)
  | _ => rfl

/-! ## CWP -/

/-- An instruction that completes changes CWP by a SAVE, a RESTORE, a RETT or a WRPSR. -/
theorem Completes.cwp_cases (h : Completes s i t) :
    t.psr.cwp = s.psr.cwp ∨
    ((∃ rd rs1 op2, i = .save rd rs1 op2) ∧ t.psr.cwp = prevWindow s.cfg.nwindows s.psr.cwp) ∨
    ((∃ rd rs1 op2, i = .restore rd rs1 op2) ∧ t.psr.cwp = nextWindow s.cfg.nwindows s.psr.cwp) ∨
    ((∃ rs1 op2, i = .rett rs1 op2) ∧ t.psr.cwp = nextWindow s.cfg.nwindows s.psr.cwp) ∨
    (∃ rs1 op2, i = .wrpsr rs1 op2 ∧ t.psr.cwp = (s.writeValue rs1 op2).extractLsb' 0 5 ∧
      t.psr.cwp.toNat < s.cfg.nwindows.toNat) := by
  cases h with
  | stores rd v hm hu => obtain ⟨m, l, d, rfl⟩ := hu.memoryChanged; exact .inl rfl
  | branches k a disp22 hb => obtain ⟨pc, npc, d, rfl⟩ := bicc_frame hb; exact .inl rfl
  | saves rd rs1 op2 hw => rw [moveWindow_next hw]; exact .inr (.inl ⟨⟨rd, rs1, op2, rfl⟩, rfl⟩)
  | restores rd rs1 op2 hw => rw [moveWindow_next hw]; exact .inr (.inr (.inl ⟨⟨rd, rs1, op2, rfl⟩, rfl⟩))
  | returns rs1 op2 hs htarget => exact .inr (.inr (.inr (.inl ⟨⟨rs1, op2, rfl⟩, rfl⟩)))
  | setsPsr rs1 op2 hs hcwp => exact .inr (.inr (.inr (.inr ⟨rs1, op2, rfl, rfl, hcwp⟩)))
  | _ => exact .inl rfl

/-! ## Memory -/

/-- Only a store writes memory; an LDD lets the DMA writes under way land. -/
theorem Completes.mem_eq (h : Completes s i t) (hi : writesMemory i = false) :
    t.storedTo = s.storedTo ∧
      (s.dmaPending = [] ∨ (∀ rd rs1 op2, i ≠ .ldd rd rs1 op2) → t.mem = s.mem ∧ t.dmaPending = s.dmaPending) := by
  cases h with
  | stores rd v hm hu => simp [hm] at hi
  | loadsDouble rd rs1 op2 v u =>
    refine ⟨rfl, fun hd => ?_⟩
    have hd : s.dmaPending = [] := hd.resolve_right fun hn => hn rd rs1 op2 rfl
    exact ⟨by show s.dmaPending.foldl _ s.mem = s.mem; rw [hd]; rfl, hd.symm⟩
  | branches k a disp22 hb => obtain ⟨pc, npc, d, rfl⟩ := bicc_frame hb; exact ⟨rfl, fun _ => ⟨rfl, rfl⟩⟩
  | saves rd rs1 op2 hw => rw [moveWindow_next hw]; exact ⟨rfl, fun _ => ⟨rfl, rfl⟩⟩
  | restores rd rs1 op2 hw => rw [moveWindow_next hw]; exact ⟨rfl, fun _ => ⟨rfl, rfl⟩⟩
  | _ => exact ⟨rfl, fun _ => ⟨rfl, rfl⟩⟩

/-! ## The hidden state -/

theorem Completes.hiddenKept (h : Completes s i t) : HiddenKept s t := by
  cases h with
  | stores rd v hm hu => obtain ⟨m, l, d, rfl⟩ := hu.memoryChanged; exact ⟨rfl, rfl, rfl, rfl⟩
  | branches k a disp22 hb => obtain ⟨pc, npc, d, rfl⟩ := bicc_frame hb; exact ⟨rfl, rfl, rfl, rfl⟩
  | saves rd rs1 op2 hw => rw [moveWindow_next hw]; exact ⟨rfl, rfl, rfl, rfl⟩
  | restores rd rs1 op2 hw => rw [moveWindow_next hw]; exact ⟨rfl, rfl, rfl, rfl⟩
  | _ => exact ⟨rfl, rfl, rfl, rfl⟩

/-- The delayed-write windows count one instruction, but that a write state register instruction opens its own. -/
theorem Completes.pending_eq (h : Completes s i t) (hi : opensWindow i = false) : t.pending = s.pending.tick := by
  cases h with
  | stores rd v hm hu => obtain ⟨m, l, d, rfl⟩ := hu.memoryChanged; rfl
  | branches k a disp22 hb => obtain ⟨pc, npc, d, rfl⟩ := bicc_frame hb; rfl
  | saves rd rs1 op2 hw => rw [moveWindow_next hw]; rfl
  | restores rd rs1 op2 hw => rw [moveWindow_next hw]; rfl
  | setsPsr rs1 op2 hs hcwp => exact nomatch hi
  | setsWim rs1 op2 hs => exact nomatch hi
  | setsTbr rs1 op2 hs => exact nomatch hi
  | setsY rs1 op2 => exact nomatch hi
  | _ => rfl

/-- The history is cleared by every instruction that is no delayed control transfer. -/
theorem Completes.dctiPrev_eq (h : Completes s i t) (hd : isDelayedTransfer i = false) : t.dctiPrev = .none := by
  cases h with
  | branches k a disp22 hb => rw [isDelayedTransfer_branchOf] at hd; cases hd
  | saves rd rs1 op2 hw => rw [moveWindow_next hw]; rfl
  | restores rd rs1 op2 hw => rw [moveWindow_next hw]; rfl
  | calls disp30 => exact nomatch hd
  | jumps rd rs1 op2 htarget => exact nomatch hd
  | returns rs1 op2 hs htarget => exact nomatch hd
  | _ => rfl

end

/-- The table of uses names the delayed control transfers of 43_branch.md rule R240. -/
theorem uses_dcti (i : Instr) : (uses i).dcti = isDelayedTransfer i := by cases i <;> rfl

/-! ## User mode -/

theorem tickCount_le (n : Fin 4) : tickCount n ≤ n := Nat.sub_le n.val 1

/-- In user mode an instruction that completes leaves S, PIL, PS, ET, WIM and TBR as they were and opens no delayed-write
window of PSR, WIM or TBR: what would change them has found S = 1 (60_exceptions.md rules R350 and R351). -/
theorem Completes.user {i : Instr} {s t : State} (h : Completes s i t) (hs : s.psr.s = false) :
    t.psr.s = s.psr.s ∧ t.psr.pil = s.psr.pil ∧ t.psr.ps = s.psr.ps ∧ t.psr.et = s.psr.et ∧ t.wim = s.wim ∧
      t.tbr = s.tbr ∧ t.pending.psr ≤ s.pending.psr ∧ t.pending.wim ≤ s.pending.wim ∧
      t.pending.tbr ≤ s.pending.tbr := by
  have htick : s.pending.tick.psr ≤ s.pending.psr ∧ s.pending.tick.wim ≤ s.pending.wim ∧
      s.pending.tick.tbr ≤ s.pending.tbr := ⟨tickCount_le _, tickCount_le _, tickCount_le _⟩
  cases h with
  | stores rd v hm hu =>
    obtain ⟨m, l, d, rfl⟩ := hu.memoryChanged; exact ⟨rfl, rfl, rfl, rfl, rfl, rfl, htick⟩
  | branches k a disp22 hb => obtain ⟨pc, npc, d, rfl⟩ := bicc_frame hb; exact ⟨rfl, rfl, rfl, rfl, rfl, rfl, htick⟩
  | saves rd rs1 op2 hw => rw [moveWindow_next hw]; exact ⟨rfl, rfl, rfl, rfl, rfl, rfl, htick⟩
  | restores rd rs1 op2 hw => rw [moveWindow_next hw]; exact ⟨rfl, rfl, rfl, rfl, rfl, rfl, htick⟩
  | returns rs1 op2 hsup htarget => simp [hs] at hsup
  | setsPsr rs1 op2 hsup hcwp => simp [hs] at hsup
  | setsWim rs1 op2 hsup => simp [hs] at hsup
  | setsTbr rs1 op2 hsup => simp [hs] at hsup
  | _ => exact ⟨rfl, rfl, rfl, rfl, rfl, rfl, htick⟩

/-! ## The statements -/

/-- Settles O53: a trap entry goes to the window below, error mode keeps CWP, and the other events are the ways to
complete that change it. -/
theorem cwpChangeEvents : Obligations.CwpChangeEvents := by
  intro i s t h
  rcases exec_next h with ⟨trap, -, rfl⟩ | ⟨-, rfl⟩ | hc
  · exact .inr (.inr (.inl ⟨⟨_, trapEntry_entered s trap.tt⟩, prevWindow_toNat _ _⟩))
  · exact .inl rfl
  · rcases hc.cwp_cases with e | ⟨hi, e⟩ | ⟨hi, e⟩ | ⟨hi, e⟩ | ⟨rs1, op2, hi, e, -⟩
    · exact .inl e
    · exact .inr (.inl ⟨hi, by rw [e, prevWindow_toNat]⟩)
    · exact .inr (.inr (.inr (.inl ⟨hi, by rw [e, nextWindow_toNat]⟩)))
    · exact .inr (.inr (.inr (.inr (.inl ⟨hi, by rw [e, nextWindow_toNat]⟩))))
    · exact .inr (.inr (.inr (.inr (.inr ⟨rs1, op2, hi, e⟩))))

/-- Settles O54: neither a trap entry nor error mode writes any of the registers or memory, and each way to complete
writes one of them only for the instructions of its list. -/
theorem stateRegisterWriters : Obligations.StateRegisterWriters := by
  intro i s t h
  rcases exec_next h with ⟨trap, -, rfl⟩ | ⟨-, rfl⟩ | hc
  · exact ⟨fun _ => rfl, fun _ => rfl, fun _ => rfl, fun _ => rfl, fun _ => rfl, fun _ => ⟨rfl, fun _ => ⟨rfl, rfl⟩⟩⟩
  · exact ⟨fun _ => rfl, fun _ => rfl, fun _ => rfl, fun _ => rfl, fun _ => rfl, fun _ => ⟨rfl, fun _ => ⟨rfl, rfl⟩⟩⟩
  · exact ⟨hc.icc_eq, hc.y_eq, hc.wim_eq, fun hi => by rw [hc.tbr_eq hi], hc.pil_eq, hc.mem_eq⟩

/-- Settles O55: with the environment at rest a step is a trap or one instruction, and no instruction that completes in
user mode changes what user mode may not change. -/
theorem userModeConfined : Obligations.UserModeConfined := by
  intro s t herr hin hdma hs h
  rw [step_idle hin hdma herr] at h
  have htrap : ∀ {trap}, raise trap s = .next t → (∃ tt, TrapEntered s t tt) ∨ InErrorMode s t := fun hr => by
    rcases raise_next hr with ⟨-, rfl⟩ | ⟨-, rfl⟩
    · exact .inr (enterErrorMode_inErrorMode s)
    · exact .inl ⟨_, trapEntry_entered s _⟩
  rcases runAtPc_next h with ⟨trap, hr⟩ | ⟨i, -, -, hi⟩
  · exact .inr (htrap hr)
  · rcases exec_next hi with ⟨trap, -, rfl⟩ | ⟨-, rfl⟩ | hc
    · exact .inr (.inl ⟨_, trapEntry_entered s _⟩)
    · exact .inr (.inr (enterErrorMode_inErrorMode s))
    · obtain ⟨hs', hpil, hps, het, hwim, htbr, hpending⟩ := hc.user hs
      exact .inl ⟨hs'.trans hs, hpil, hps, het, hwim, htbr, hc.hiddenKept.errorMode.trans herr, hpending⟩

/-- Settles O58. -/
theorem completionCountsOne : Obligations.CompletionCountsOne := by
  intro i s t h
  rcases exec_next h with ⟨trap, -, rfl⟩ | ⟨-, rfl⟩ | hc
  · exact .inl ⟨_, trapEntry_entered s _⟩
  · exact .inr (.inl (enterErrorMode_inErrorMode s))
  · exact .inr (.inr ⟨hc.hiddenKept, hc.pending_eq, fun hd => hc.dctiPrev_eq (by rwa [← uses_dcti])⟩)

end Sys2Proof.Machine
end

section
/-! The invariant of every reachable state (10_state.md rules R22, R25, R28, R29, R31 and R32, 20_memory.md rule R60): each
operation on the state keeps it, so every way to complete, every trap and every step does. -/

namespace Sys2Proof.Machine

/-! ## Addresses -/

theorem aligned_add_four {a : Word} (h : aligned 4 a = true) : aligned 4 (a + 4) = true := by
  rw [aligned_iff] at h ⊢
  bv_omega

theorem aligned_add_four_mul {a : Word} (h : aligned 4 a = true) (d : Word) : aligned 4 (a + 4 * d) = true := by
  rw [aligned_iff] at h ⊢
  bv_omega

/-- The address of a trap handler is a multiple of 16 (10_state.md rule R38). -/
theorem aligned_trapAddress (tba : BitVec 20) (tt : BitVec 8) : aligned 4 (tba ++ tt ++ 0#4) = true := by
  rw [aligned_iff, BitVec.toNat_append, Nat.shiftLeft_eq, BitVec.toNat_ofNat, Nat.or_zero]
  omega

/-! ## What keeps the invariant -/

/-- A windowed register that a number names lies within the machine's windows. -/
theorem physReg_lt {n : NWindows} {w : BitVec 5} {i : RegIdx} {k : Fin 512} (h : physReg n w i = .windowed k) :
    k.val < 16 * n.toNat := by
  rw [physReg] at h
  split at h
  · cases h
  · cases h
    exact Nat.mod_lt _ (by have := NWindows.toNat_pos n; omega)

theorem Regs.write_globalZero (r : Regs) (p : PhysReg) (v : Word) : (r.write p v).globals[0] = r.globals[0] := by
  cases p with
  | global k =>
    by_cases hk : k = 0
    · rw [Regs.write, if_pos hk]
    · have : k.val ≠ 0 := fun e => hk (Fin.ext e)
      simp [Regs.write, hk, Vector.getElem_set_ne, this]
  | windowed k => rfl

theorem Regs.write_absent (r : Regs) {n : NWindows} {w : BitVec 5} {i : RegIdx} (v : Word) {j : Fin 512}
    (hj : 16 * n.toNat ≤ j.val) : (r.write (physReg n w i) v).windowed[j.val] = r.windowed[j.val] := by
  cases hp : physReg n w i with
  | global k =>
    rw [Regs.write]
    split <;> rfl
  | windowed k =>
    have : k.val ≠ j.val := by have := physReg_lt hp; omega
    simp [Regs.write, Vector.getElem_set_ne, this]

section

variable {s : State}

theorem State.Inv.writeRegAt (h : s.Inv) (w : BitVec 5) (i : RegIdx) (v : Word) : (s.writeRegAt w i v).Inv :=
  { h with
    globalZero := (Regs.write_globalZero ..).trans h.globalZero
    absentWindows := fun j hj => (Regs.write_absent s.regs v hj).trans (h.absentWindows j hj) }

theorem State.Inv.writeReg (h : s.Inv) (i : RegIdx) (v : Word) : (s.writeReg i v).Inv := h.writeRegAt _ i v

theorem State.Inv.setIcc (h : s.Inv) (f : Icc) : (s.setIcc f).Inv := { h with }

theorem State.Inv.setY (h : s.Inv) (v : Word) : (s.setY v).Inv := { h with }

theorem State.Inv.complete (h : s.Inv) {pc npc : Word} {d : DctiPrev} (hpc : aligned 4 pc = true)
    (hnpc : aligned 4 npc = true) : (s.complete pc npc d).Inv := { h with pcAligned := hpc, npcAligned := hnpc }

theorem State.Inv.advance (h : s.Inv) : s.advance.Inv := h.complete h.npcAligned (aligned_add_four h.npcAligned)

theorem State.Inv.openWindows (h : s.Inv) (old : Psr) :
    (s.openPsrWindow old).Inv ∧ s.openWimWindow.Inv ∧ s.openTbrWindow.Inv ∧ s.openYWindow.Inv :=
  ⟨{ h with }, { h with }, { h with }, { h with }⟩

theorem State.Inv.setPsr (h : s.Inv) {p : Psr} (hp : p.cwp.toNat < s.cfg.nwindows.toNat) :
    ({ s with psr := p } : State).Inv := { h with cwpLegal := hp }

theorem State.Inv.storeByte (h : s.Inv) (a : Word) (b : Byte) : (s.storeByte a b).Inv :=
  { h with
    memCanonical := Memory.wf_write _ _ _ h.memCanonical
    memInSpace := Memory.inSpace_write _ _ h.memInSpace
    storedRising := storedTo_rising _ _ h.storedRising }

theorem State.Inv.applyDma (h : s.Inv) (l : List (Word × Byte)) : (s.applyDma l).Inv :=
  have hmem := Memory.foldl_write_inv l s.mem h.memCanonical h.memInSpace
  { h with memCanonical := hmem.1, memInSpace := hmem.2 }

theorem State.Inv.landDma (h : s.Inv) : s.landDma.Inv := { h.applyDma s.dmaPending with }

theorem State.Inv.takeInput (h : s.Inv) : s.takeInput.Inv :=
  have hpop : s.popInput.Inv := { h with }
  { hpop.landDma.applyDma s.input.dma with }

theorem State.Inv.storeWord (h : s.Inv) (a v : Word) : (s.storeWord a v).Inv :=
  (((h.storeByte _ _).storeByte _ _).storeByte _ _).storeByte _ _

theorem State.Inv.stored (h : s.Inv) {u : State} (hu : Stored s u) : u.Inv := by
  cases hu with
  | byte a b => exact h.storeByte a b
  | half a v => exact (h.storeByte _ _).storeByte _ _
  | word a v => exact h.storeWord a v
  | double a v u => exact (h.storeWord a v).landDma.storeWord _ _

theorem State.Inv.bicc (h : s.Inv) {k : Cond} {a : Bool} {disp22 : BitVec 22} {t : State}
    (hb : bicc k a disp22 s = .next t) : t.Inv := by
  have htarget : aligned 4 (s.branchTarget disp22) = true := aligned_add_four_mul h.pcAligned _
  have hnpc8 : aligned 4 (s.npc + 8) = true := aligned_add_four_mul h.npcAligned 2
  rcases bicc_next hb with ⟨rfl, -⟩ | ⟨rfl, -⟩ | ⟨rfl, -⟩ | ⟨rfl, -⟩
  · exact h.complete htarget (aligned_add_four htarget)
  · exact h.complete h.npcAligned htarget
  · exact h.complete (aligned_add_four h.npcAligned) hnpc8
  · exact h.complete h.npcAligned (aligned_add_four h.npcAligned)

theorem State.Inv.moveWindow (h : s.Inv) {w : BitVec 5} (hw : w.toNat < s.cfg.nwindows.toNat) {rd : RegIdx} {v : Word}
    {t : State} (hm : moveWindow w rd v s = .next t) : t.Inv := by
  rw [moveWindow_next hm]
  have hp : ({ s with psr := { s.psr with cwp := w } } : State).Inv := h.setPsr hw
  exact (hp.writeRegAt w rd v).advance

theorem State.Inv.returnFromTrap (h : s.Inv) {target : Word} (ht : aligned 4 target = true) :
    (s.returnFromTrap target).Inv := State.Inv.complete (h.setPsr (nextWindow_lt _ _)) h.npcAligned ht

theorem State.Inv.setWim (h : s.Inv) (v : Word) :
    ({ s with wim := v &&& windowMask s.cfg.nwindows } : State).Inv :=
  { h with wimMasked := by rw [BitVec.and_assoc, BitVec.and_self] }

theorem State.Inv.setTbr (h : s.Inv) (tbr : Tbr) : ({ s with tbr := tbr } : State).Inv := { h with }

/-! ## Instructions, traps, reset -/

theorem State.Inv.completes (h : s.Inv) {i : Instr} {t : State} (hc : Completes s i t) : t.Inv := by
  cases hc with
  | computes rd v f y hicc hy hdcti => exact (((h.writeReg rd v).setY y).setIcc f).advance
  | stores rd v hi hu => exact ((h.stored hu).writeReg rd v).advance
  | loadsDouble rd rs1 op2 v u => exact ((h.landDma.writeReg rd v).writeReg (rd + 1) u).advance
  | branches k a disp22 hb => exact h.bicc hb
  | calls disp30 => exact (h.writeReg 15 s.pc).complete h.npcAligned (aligned_add_four_mul h.pcAligned _)
  | jumps rd rs1 op2 htarget => exact (h.writeReg rd s.pc).complete h.npcAligned htarget
  | saves rd rs1 op2 hw => exact h.moveWindow (prevWindow_lt _ _) hw
  | restores rd rs1 op2 hw => exact h.moveWindow (nextWindow_lt _ _) hw
  | returns rs1 op2 hs htarget => exact h.returnFromTrap htarget
  | setsPsr rs1 op2 hs hcwp => exact ((h.setPsr hcwp).advance.openWindows s.psr).1
  | setsWim rs1 op2 hs => exact ((h.setWim _).advance.openWindows s.psr).2.1
  | setsTbr rs1 op2 hs => exact ((h.setTbr _).advance.openWindows s.psr).2.2.1
  | setsY rs1 op2 => exact ((h.setY _).advance.openWindows s.psr).2.2.2

theorem State.Inv.trapEntry (h : s.Inv) (tt : BitVec 8) : (s.trapEntry tt).Inv :=
  have hentered : ({ s with
      tbr := { s.tbr with tt := tt }
      psr := { s.psr with et := false, ps := s.psr.s, s := true, cwp := prevWindow s.cfg.nwindows s.psr.cwp }
      pc := s.tbr.tba ++ tt ++ 0#4
      npc := s.tbr.tba ++ tt ++ 0#4 + 4
      dctiPrev := .none } : State).Inv :=
    { h with
      cwpLegal := prevWindow_lt _ _
      pcAligned := aligned_trapAddress _ _
      npcAligned := aligned_add_four (aligned_trapAddress _ _) }
  (hentered.writeRegAt _ 17 s.pc).writeRegAt _ 18 s.npc

theorem State.Inv.enterErrorMode (h : s.Inv) : s.enterErrorMode.Inv := { h with }

theorem State.Inv.raise (h : s.Inv) {trap : Trap} {t : State} (hr : raise trap s = .next t) : t.Inv := by
  rcases raise_next hr with ⟨-, rfl⟩ | ⟨-, rfl⟩
  · exact h.enterErrorMode
  · exact h.trapEntry _

theorem State.Inv.exec (h : s.Inv) {i : Instr} {t : State} (he : exec i s = .next t) : t.Inv := by
  rcases exec_next he with ⟨trap, -, rfl⟩ | ⟨-, rfl⟩ | hc
  · exact h.trapEntry _
  · exact h.enterErrorMode
  · exact h.completes hc

end

theorem psrAtReset_cwp_lt (n : NWindows) (w : Word) : (Psr.atReset n w).cwp.toNat < n.toNat := by
  have h1 := NWindows.toNat_le n
  have h2 := Nat.mod_lt w.toNat (NWindows.toNat_pos n)
  rw [Psr.atReset, BitVec.toNat_ofNat, Nat.mod_eq_of_lt (by omega)]
  exact h2

/-- A reset establishes the invariant, whatever the state was. -/
theorem resetEntry_inv (s : State) (image : List (Word × Byte)) : (s.resetEntry image).Inv where
  pcAligned := rfl
  npcAligned := (aligned_iff 4 4).2 rfl
  cwpLegal := psrAtReset_cwp_lt _ _
  wimMasked := by simp only [State.resetEntry, BitVec.and_assoc, BitVec.and_self]
  globalZero := by simp [State.resetEntry, Regs.atReset]
  absentWindows := fun j hj => by
    have hj : 16 * s.cfg.nwindows.toNat ≤ j.val := hj
    simp [State.resetEntry, Regs.atReset, hj]
  memCanonical := (Memory.ofBytes_inv image).1
  memInSpace := (Memory.ofBytes_inv image).2
  storedRising := rfl

/-! ## Steps -/

/-- Everything a step that answers a next state can be: a reset, a wait in error mode, a trap, or an instruction that no
check before it refuses. -/
theorem step_next {s t : State} (h : step s = .next t) :
    (∃ image, s.input.reset = some image ∧ t = s.popInput.resetEntry image) ∨ (s.errorMode = true ∧ t = s.takeInput) ∨
      (∃ trap, raise trap s.takeInput = .next t) ∨
        ∃ i, hazard i s.takeInput = none ∧ exec i s.takeInput = .next t := by
  rw [step] at h
  split at h
  next image hi => exact .inl ⟨image, hi, (Host.Outcome.next.inj h).symm⟩
  next =>
    dsimp only at h
    split at h
    next he =>
      rw [errorModeStep] at h
      split at h
      · cases h
      · exact .inr (.inl ⟨he, (Host.Outcome.next.inj h).symm⟩)
    next =>
      rw [withInterruptTest] at h
      split at h
      · cases h
      · split at h
        · exact .inr (.inr (.inl ⟨_, h⟩))
        · rcases runAtPc_next h with ht | ⟨i, -, hhazard, hexec⟩
          · exact .inr (.inr (.inl ht))
          · exact .inr (.inr (.inr ⟨i, hhazard, hexec⟩))

/-- Settles O50: taking the input in keeps the invariant, and so does each thing a step can then be. -/
theorem stepKeepsInvariant : Obligations.StepKeepsInvariant := by
  intro s t hinv h
  rcases step_next h with ⟨image, -, rfl⟩ | ⟨-, rfl⟩ | ⟨trap, hr⟩ | ⟨i, -, he⟩
  · exact resetEntry_inv _ image
  · exact hinv.takeInput
  · exact hinv.takeInput.raise hr
  · exact hinv.takeInput.exec he

/-- Settles O51. -/
theorem resetStateSatisfiesInvariant : Obligations.ResetStateSatisfiesInvariant where
  pcAligned := rfl
  npcAligned := rfl
  cwpLegal := by decide
  wimMasked := by decide
  globalZero := by simp [State.reset]
  absentWindows := fun j _ => by simp [State.reset]
  memCanonical := rfl
  memInSpace := fun _ hc => nomatch hc
  storedRising := rfl

theorem raise_cfg {trap : Trap} {s t : State} (h : raise trap s = .next t) : t.cfg = s.cfg := by
  rcases raise_next h with ⟨-, rfl⟩ | ⟨-, rfl⟩ <;> rfl

theorem exec_cfg {i : Instr} {s t : State} (h : exec i s = .next t) : t.cfg = s.cfg := by
  rcases exec_next h with ⟨trap, -, rfl⟩ | ⟨-, rfl⟩ | hc
  · rfl
  · rfl
  · exact hc.hiddenKept.cfg

/-- Settles O52. -/
theorem parametersNeverChange : Obligations.ParametersNeverChange := by
  intro s t h
  rcases step_next h with ⟨image, -, rfl⟩ | ⟨-, rfl⟩ | ⟨trap, hr⟩ | ⟨i, -, he⟩
  · rfl
  · rfl
  · exact (raise_cfg hr).trans (takeInput_cfg s)
  · exact (exec_cfg he).trans (takeInput_cfg s)

end Sys2Proof.Machine
end

section
/-! Decoding and encoding are inverse (30_encoding.md rules R91 to R96 and R104 to R109): the row of the opcode map each
instruction's word is in, and what is read back from its fields. -/

namespace Sys2Proof.Machine

/-! ## The maps -/

theorem decode_of_op0 {cfg : Config} {w : Word} (h : opField w = 0#2) : decode cfg w = decodeFormat2 w := by
  rw [decode, h]; rfl

theorem decode_of_op2 {cfg : Config} {w : Word} (h : opField w = 2#2) : decode cfg w = decodeArith cfg w := by
  rw [decode, h]; rfl

theorem decode_of_op3 {cfg : Config} {w : Word} (h : opField w = 3#2) : decode cfg w = decodeMemory cfg w := by
  rw [decode, h]; rfl

/-! ## A word of a row -/

/-- A word in a row of the op = 10 map with rd, rs1 and operand 2 and no other reserved field. -/
theorem decode_encodeArith_of_row {cfg : Config} {op3 : BitVec 6} {k : RegIdx → RegIdx → Operand2 → Instr}
    (hrow : ∀ w, op3Field w = op3 → decodeArith cfg w = withOperand2 cfg w true (k (rdField w) (rs1Field w)))
    (rd rs1 : RegIdx) (o : Operand2) : decode cfg (encodeArith op3 rd rs1 o) = .instr (k rd rs1 o) := by
  rw [decode_encodeArith, encodeArith, hrow _ (op3Field_format3 ..), rdField_format3, rs1Field_format3,
    withOperand2_encode]

/-- A word in a row of the op = 10 map whose field rd is reserved. -/
theorem decode_encodeArith_of_rowNoRd {cfg : Config} {op3 : BitVec 6} {k : RegIdx → Operand2 → Instr}
    (hrow : ∀ w, op3Field w = op3 → decodeArith cfg w = withOperand2 cfg w (rdField w == 0) (k (rs1Field w)))
    (rs1 : RegIdx) (o : Operand2) : decode cfg (encodeArith op3 0 rs1 o) = .instr (k rs1 o) := by
  rw [decode_encodeArith, encodeArith, hrow _ (op3Field_format3 ..), rdField_format3, rs1Field_format3, beq_self_eq_true,
    withOperand2_encode]

/-- A word in a row of the op = 11 map. -/
theorem decode_encodeMemory_of_row {cfg : Config} {op3 : BitVec 6} {k : RegIdx → RegIdx → Operand2 → Instr}
    (hrow : ∀ w, op3Field w = op3 → decodeMemory cfg w = withOperand2 cfg w true (k (rdField w) (rs1Field w)))
    (rd rs1 : RegIdx) (o : Operand2) : decode cfg (encodeMemory op3 rd rs1 o) = .instr (k rd rs1 o) := by
  rw [encodeMemory, decode_of_op3 (opField_format3 ..), hrow _ (op3Field_format3 ..), rdField_format3, rs1Field_format3, withOperand2_encode]

theorem decode_encodeShift_of_row {cfg : Config} {op3 : BitVec 6} {k : RegIdx → RegIdx → ShiftCount → Instr}
    (hrow : ∀ w, op3Field w = op3 → decodeArith cfg w = withShiftCount cfg w (k (rdField w) (rs1Field w)))
    (rd rs1 : RegIdx) (cnt : ShiftCount) : decode cfg (encodeShift op3 rd rs1 cnt) = .instr (k rd rs1 cnt) := by
  rw [encodeShift, decode_of_op2 (opField_format3 ..), hrow _ (op3Field_format3 ..), rdField_format3, rs1Field_format3, withShiftCount_encode]

/-- The words that read PSR, WIM and TBR: every bit below op3 is unused. -/
theorem decode_format3_read (cfg : Config) (rd rs1 : BitVec 5) (i : BitVec 1) (low : BitVec 13) :
    decode cfg (encodeFormat3 2#2 rd 0b101001#6 rs1 i low) = .instr (.rdpsr rd) ∧
      decode cfg (encodeFormat3 2#2 rd 0b101010#6 rs1 i low) = .instr (.rdwim rd) ∧
        decode cfg (encodeFormat3 2#2 rd 0b101011#6 rs1 i low) = .instr (.rdtbr rd) := by
  refine ⟨?_, ?_, ?_⟩ <;>
    (rw [decode_of_op2 (opField_format3 ..), decodeArith, op3Field_format3, rdField_format3]; rfl)

/-- The words that read Y and the ancillary state registers: rs1 selects the register (46_state_register.md rule R309). -/
theorem decode_format3_readAsr (cfg : Config) (rd rs1 : BitVec 5) (i : BitVec 1) (low : BitVec 13) :
    decode cfg (encodeFormat3 2#2 rd 0b101000#6 rs1 i low) = .instr (if rs1 = 0 then .rdy rd else .rdasr rd rs1) := by
  rw [decode_of_op2 (opField_format3 ..), decodeArith, op3Field_format3, rdField_format3, rs1Field_format3,
    apply_ite Decoded.instr]
  rfl

/-- The words that write Y and the ancillary state registers: rd selects the register (46_state_register.md rule R311). -/
theorem decode_encodeArith_write (cfg : Config) (rd rs1 : RegIdx) (o : Operand2) :
    decode cfg (encodeArith 0b110000#6 rd rs1 o) = .instr (if rd = 0 then .wry rs1 o else .wrasr rd rs1 o) := by
  have hrow : decodeArith cfg (encodeArith 0b110000#6 rd rs1 o) =
      if rd = 0 then withOperand2 cfg (encodeArith 0b110000#6 rd rs1 o) true (.wry rs1)
      else withOperand2 cfg (encodeArith 0b110000#6 rd rs1 o) true (.wrasr rd rs1) := by
    rw [decodeArith, encodeArith, op3Field_format3, rdField_format3, rs1Field_format3]; rfl
  rw [decode_encodeArith, hrow]
  split <;> exact withOperand2_encode ..

/-- SETHI, and NOP where both fields are zero (41_logical_shift_sethi.md rules R190 and R191). -/
theorem decode_sethi (cfg : Config) (rd : BitVec 5) (imm22 : BitVec 22) :
    decode cfg (encodeFormat2 rd 0b100#3 imm22) =
      .instr (if rd = 0 ∧ imm22 = 0 then .nop else .sethi rd imm22) := by
  rw [decode_of_op0 (opField_format2 ..), decodeFormat2, op2Field_format2, rdField_format2, imm22Field_format2,
    apply_ite Decoded.instr]
  rfl

theorem decode_unimp (cfg : Config) (bits : BitVec 5) (const22 : BitVec 22) :
    decode cfg (encodeFormat2 bits 0b000#3 const22) = .instr (.unimp bits const22) := by
  rw [decode_of_op0 (opField_format2 ..), decodeFormat2, op2Field_format2, rdField_format2, imm22Field_format2]; rfl

theorem decode_encodeCall (cfg : Config) (disp30 : BitVec 30) :
    decode cfg (encodeCall disp30) = .instr (.call disp30) := by
  simp only [decode, opField_call, disp30Field_call]

/-- The signed multiplies stand at the op3 pair that SMUL_OP3 selects (40_arithmetic.md rules R150 and R151). -/
theorem decodeArith_smul (cfg : Config) (w : Word) (h : op3Field w = cfg.smulOp3.code) :
    decodeArith cfg w = withOperand2 cfg w true (.smul (rdField w) (rs1Field w)) := by
  cases hsel : cfg.smulOp3 <;> rw [hsel] at h <;> simp only [decodeArith, h, SmulOp3.code, hsel, if_true]

theorem decodeArith_smulcc (cfg : Config) (w : Word) (h : op3Field w = cfg.smulOp3.codeCc) :
    decodeArith cfg w = withOperand2 cfg w true (.smulcc (rdField w) (rs1Field w)) := by
  cases hsel : cfg.smulOp3 <;> rw [hsel] at h <;> simp only [decodeArith, h, SmulOp3.codeCc, hsel, if_true]

/-! ## Every instruction -/

/-- Settles O1: each instruction's word is in its row of the opcode maps, and its operands are read back from its
fields. -/
theorem decodeInvertsEncode : Obligations.DecodeInvertsEncode := by
  intro cfg i hwf
  cases i
  case unimp bits const22 => exact decode_unimp cfg bits const22
  case nop => exact decode_sethi cfg 0 0
  case sethi rd imm22 =>
    have hne : ¬(rd = 0 ∧ imm22 = 0) := by simpa [Instr.wellFormed, imp_iff_not_or] using hwf
    exact (decode_sethi cfg rd imm22).trans (by rw [if_neg hne])
  case call disp30 => exact decode_encodeCall cfg disp30
  case ba | bn | bne | be | bg | ble | bge | bl | bgu | bleu | bcc | bcs | bpos | bneg | bvc | bvs =>
    exact decode_encodeBicc ..
  case ta | tn | tne | te | tg | tle | tge | tl | tgu | tleu | tcc | tcs | tpos | tneg | tvc | tvs =>
    exact decode_encodeTicc ..
  case smul rd rs1 op2 => exact decode_encodeArith_of_row (k := .smul) (decodeArith_smul cfg) rd rs1 op2
  case smulcc rd rs1 op2 => exact decode_encodeArith_of_row (k := .smulcc) (decodeArith_smulcc cfg) rd rs1 op2
  case sll | srl | sra => exact decode_encodeShift_of_row (fun w hw => by rw [decodeArith, hw]; rfl) ..
  case ldsb | ldub | ldsh | lduh | ld | ldd | stb | sth | st | std | ldstub | swap =>
    exact decode_encodeMemory_of_row (fun w hw => by rw [decodeMemory, hw]; rfl) ..
  case rett | wrpsr | wrwim | wrtbr =>
    exact decode_encodeArith_of_rowNoRd (fun w hw => by rw [decodeArith, hw]; rfl) ..
  case rdpsr rd => exact (decode_format3_read cfg rd 0 0 0).1
  case rdwim rd => exact (decode_format3_read cfg rd 0 0 0).2.1
  case rdtbr rd => exact (decode_format3_read cfg rd 0 0 0).2.2
  case rdy rd => exact decode_format3_readAsr cfg rd 0 0 0
  case rdasr rd asr =>
    have hne : asr ≠ 0 := by simpa [Instr.wellFormed] using hwf
    exact (decode_format3_readAsr cfg rd asr 0 0).trans (by rw [if_neg hne])
  case wry rs1 op2 => exact decode_encodeArith_write cfg 0 rs1 op2
  case wrasr asr rs1 op2 =>
    have hne : asr ≠ 0 := by simpa [Instr.wellFormed] using hwf
    exact (decode_encodeArith_write cfg asr rs1 op2).trans (by rw [if_neg hne])
  all_goals exact decode_encodeArith_of_row (fun w hw => by rw [decodeArith, hw]; rfl) ..

end Sys2Proof.Machine
end

section
/-! What a word that decodes was (30_encoding.md rules R109 and R115): under RESERVED_POLICY = refuse it is the word of the
instruction it decodes to, but for the unused bits of the read state register instructions. -/

namespace Sys2Proof.Machine

/-! ## Fields of a word -/

theorem rdField_eq_append (w : Word) : rdField w = aField w ++ condField w := by
  apply BitVec.eq_of_getLsbD_eq
  intro i hi
  simp only [rdField, aField, condField, BitVec.getLsbD_append, BitVec.getLsbD_extractLsb']
  by_cases h1 : i < 4
  · simp [h1, hi]
  · simp [h1, hi, show i - 4 < 1 by omega, show 29 + (i - 4) = 25 + i by omega]

theorem asiField_eq (w : Word) : asiField w = (simm13Field w).extractLsb' 5 8 :=
  (congrArg asiField (format3_eta w)).trans (asiField_format3 ..)

theorem rs2Field_eq (w : Word) : rs2Field w = (simm13Field w).extractLsb' 0 5 :=
  (congrArg rs2Field (format3_eta w)).trans (rs2Field_format3 ..)

theorem ticcHighField_eq (w : Word) : ticcHighField w = (simm13Field w).extractLsb' 7 6 :=
  (congrArg ticcHighField (format3_eta w)).trans (ticcHighField_format3 ..)

theorem imm7Field_eq (w : Word) : imm7Field w = (simm13Field w).extractLsb' 0 7 :=
  (congrArg imm7Field (format3_eta w)).trans (imm7Field_format3 ..)

/-- The lower 13 bits of the immediate form of Ticc with zero bits 12:7. -/
theorem low_of_ticcHigh_zero (low : BitVec 13) (h : low.extractLsb' 7 6 = 0#6) :
    low = 0#6 ++ low.extractLsb' 0 7 := by
  rw [← h]
  apply BitVec.eq_of_getLsbD_eq
  intro i hi
  simp only [BitVec.getLsbD_append, BitVec.getLsbD_extractLsb']
  by_cases h1 : i < 7
  · simp [h1]
  · simp [h1, show i - 7 < 6 by omega, show 7 + (i - 7) = i by omega]

/-- Bits 31:19 of a format 3 word. -/
theorem extract_high_format3 (op : BitVec 2) (rd : BitVec 5) (op3 : BitVec 6) (rs1 : BitVec 5) (i : BitVec 1)
    (low : BitVec 13) : (encodeFormat3 op rd op3 rs1 i low).extractLsb' 19 13 = op ++ rd ++ op3 := by
  show @BitVec.extractLsb' (2+5+6+5+1+13) 19 13 (op ++ rd ++ op3 ++ rs1 ++ i ++ low) = _
  rw [BitVec.extractLsb'_append_eq_of_le (by decide), BitVec.extractLsb'_append_eq_of_le (by decide),
    BitVec.extractLsb'_append_eq_of_le (by decide), BitVec.extractLsb'_eq_self]

theorem extract_high_eq (w : Word) : w.extractLsb' 19 13 = opField w ++ rdField w ++ op3Field w :=
  (congrArg (·.extractLsb' 19 13) (format3_eta w)).trans (extract_high_format3 ..)

theorem bit_eq_zero_of_ne_one {b : BitVec 1} (h : b ≠ 1#1) : b = 0#1 :=
  (show ∀ j : BitVec 1, j ≠ 1#1 → j = 0#1 by decide) b h

theorem ofBool_beq_one (b : BitVec 1) : BitVec.ofBool (b == 1#1) = b :=
  (show ∀ j : BitVec 1, BitVec.ofBool (j == 1#1) = j by decide) b

/-! ## Conditions and their codes -/

/-- The condition of a field cond (43_branch.md rule R231). -/
def condOfCode (c : BitVec 4) : Cond :=
  match c with
  | 0b0000#4 => .n
  | 0b0001#4 => .e
  | 0b0010#4 => .le
  | 0b0011#4 => .l
  | 0b0100#4 => .leu
  | 0b0101#4 => .cs
  | 0b0110#4 => .neg
  | 0b0111#4 => .vs
  | 0b1000#4 => .a
  | 0b1001#4 => .ne
  | 0b1010#4 => .g
  | 0b1011#4 => .ge
  | 0b1100#4 => .gu
  | 0b1101#4 => .cc
  | 0b1110#4 => .pos
  | _ => .vc

theorem condCode_condOfCode (c : BitVec 4) : condCode (condOfCode c) = c :=
  (show ∀ c : BitVec 4, condCode (condOfCode c) = c by decide) c

theorem condOfCode_condCode (k : Cond) : condOfCode (condCode k) = k := by cases k <;> rfl

theorem encode_branchOf (cfg : Config) (k : Cond) (a : Bool) (disp22 : BitVec 22) :
    encode cfg (branchOf k a disp22) = encodeBicc (condCode k) a disp22 := by cases k <;> rfl

theorem encode_trapOf (cfg : Config) (k : Cond) (rs1 : RegIdx) (num : TrapNumber) :
    encode cfg (trapOf k rs1 num) = encodeTicc (condCode k) rs1 num := by cases k <;> rfl

/-- A branch and a trap instruction are well-formed and read no state register. -/
theorem branchOf_plain (k : Cond) (a : Bool) (disp22 : BitVec 22) :
    (branchOf k a disp22).wellFormed = true ∧ readsStateRegister (branchOf k a disp22) = false := by
  cases k <;> exact ⟨rfl, rfl⟩

theorem trapOf_plain (k : Cond) (rs1 : RegIdx) (num : TrapNumber) :
    (trapOf k rs1 num).wellFormed = true ∧ readsStateRegister (trapOf k rs1 num) = false := by
  cases k <;> exact ⟨rfl, rfl⟩

/-! ## What the operand readers accept -/

/-- A word that passes the check of its reserved field is the instruction given, and under refuse the field is zero. -/
theorem reservedCheck_instr {cfg : Config} {ok : Bool} {i j : Instr} (h : reservedCheck cfg ok j = .instr i) :
    i = j ∧ (cfg.reservedPolicy = .refuse → ok = true) := by
  rw [reservedCheck] at h
  split at h
  next hc =>
    cases h
    refine ⟨rfl, fun hr => ?_⟩
    rw [hr] at hc
    simpa using hc
  next => cases h

/-- What a word read with a shift count was: under RESERVED_POLICY = refuse its reserved bits were zero. -/
theorem withShiftCount_instr {cfg : Config} {w : Word} {k : ShiftCount → Instr} {i : Instr}
    (h : withShiftCount cfg w k = .instr i) :
    ∃ cnt : ShiftCount, i = k cnt ∧
      (cfg.reservedPolicy = .refuse → iField w = cnt.iBit ∧ simm13Field w = cnt.low) := by
  obtain ⟨rfl, hok⟩ := reservedCheck_instr h
  have hlow : cfg.reservedPolicy = .refuse → simm13Field w = 0#8 ++ rs2Field w := fun hr => by
    rw [rs2Field_eq]
    exact low_of_reserved_zero _ (by simpa [asiField_eq] using hok hr)
  by_cases hi : iField w = 1#1
  · exact ⟨.imm (rs2Field w), by rw [if_pos hi], fun hr => ⟨hi, hlow hr⟩⟩
  · exact ⟨.reg (rs2Field w), by rw [if_neg hi], fun hr => ⟨bit_eq_zero_of_ne_one hi, hlow hr⟩⟩

/-- What a word read as a trap instruction was: under RESERVED_POLICY = refuse its reserved bits were zero. -/
theorem withTrapNumber_instr {cfg : Config} {w : Word} {k : TrapNumber → Instr} {i : Instr}
    (h : withTrapNumber cfg w k = .instr i) :
    ∃ num : TrapNumber, i = k num ∧
      (cfg.reservedPolicy = .refuse → aField w = 0 ∧ iField w = num.iBit ∧ simm13Field w = num.low) := by
  rw [withTrapNumber] at h
  by_cases hi : iField w = 1#1
  · rw [if_pos hi] at h
    obtain ⟨rfl, hok⟩ := reservedCheck_instr h
    refine ⟨.imm (imm7Field w), rfl, fun hr => ?_⟩
    obtain ⟨ha, hhigh⟩ : aField w = 0 ∧ ticcHighField w = 0 := by simpa using hok hr
    exact ⟨ha, hi, by rw [imm7Field_eq]; exact low_of_ticcHigh_zero _ (ticcHighField_eq w ▸ hhigh)⟩
  · rw [if_neg hi] at h
    obtain ⟨rfl, hok⟩ := reservedCheck_instr h
    refine ⟨.reg (rs2Field w), rfl, fun hr => ?_⟩
    obtain ⟨ha, hasi⟩ : aField w = 0 ∧ asiField w = 0 := by simpa using hok hr
    exact ⟨ha, bit_eq_zero_of_ne_one hi, by rw [rs2Field_eq]; exact low_of_reserved_zero _ (asiField_eq w ▸ hasi)⟩

/-! ## Words that decode -/

theorem encode_smul (cfg : Config) (rd rs1 : RegIdx) (o : Operand2) :
    encode cfg (.smul rd rs1 o) = encodeArith cfg.smulOp3.code rd rs1 o := rfl

theorem encode_smulcc (cfg : Config) (rd rs1 : RegIdx) (o : Operand2) :
    encode cfg (.smulcc rd rs1 o) = encodeArith cfg.smulOp3.codeCc rd rs1 o := rfl


/-- What the statement asks of a word and the instruction it decodes to. -/
def Faithful (cfg : Config) (w : Word) (i : Instr) : Prop :=
  i.wellFormed = true ∧
    (cfg.reservedPolicy = .refuse → readsStateRegister i = false → encode cfg i = w) ∧
      (readsStateRegister i = true → (encode cfg i).extractLsb' 19 13 = w.extractLsb' 19 13) ∧
        ((∃ rd, i = .rdy rd) ∨ (∃ rd asr, i = .rdasr rd asr) →
          (encode cfg i).extractLsb' 14 5 = w.extractLsb' 14 5)

section

variable {cfg : Config} {w : Word} {i : Instr}

/-- An instruction that reads no state register only has to be well-formed and have the word. -/
theorem faithful_of_encode (hwf : i.wellFormed = true) (hr : readsStateRegister i = false)
    (henc : cfg.reservedPolicy = .refuse → encode cfg i = w) : Faithful cfg w i := by
  refine ⟨hwf, fun hp _ => henc hp, fun h => absurd h (by simp [hr]), ?_⟩
  rintro (⟨rd, rfl⟩ | ⟨rd, asr, rfl⟩) <;> cases hr

/-- A row with operand 2; `ok` is the check of its field rd, where that is reserved. -/
theorem faithful_of_operand2 {ok : Bool} {k : Operand2 → Instr} (h : withOperand2 cfg w ok k = .instr i)
    (hk : ∀ o, (k o).wellFormed = true ∧ readsStateRegister (k o) = false)
    (henc : ∀ o, ok = true →
      encode cfg (k o) = encodeFormat3 (opField w) (rdField w) (op3Field w) (rs1Field w) o.iBit o.low) :
    Faithful cfg w i := by
  rw [show withOperand2 cfg w ok k = withOperand2 cfg (encodeFormat3 (opField w) (rdField w) (op3Field w) (rs1Field w)
    (iField w) (simm13Field w)) ok k by rw [← format3_eta w]] at h
  obtain ⟨o, rfl, hrefuse⟩ := withOperand2_instr h
  refine faithful_of_encode (hk o).1 (hk o).2 fun hp => ?_
  obtain ⟨hok, hi, hlow⟩ := hrefuse hp
  rw [henc o hok, ← hi, ← hlow, ← format3_eta w]

/-- A row of a shift. -/
theorem faithful_of_shiftCount {k : ShiftCount → Instr} (h : withShiftCount cfg w k = .instr i)
    (hk : ∀ cnt, (k cnt).wellFormed = true ∧ readsStateRegister (k cnt) = false)
    (henc : ∀ cnt,
      encode cfg (k cnt) = encodeFormat3 (opField w) (rdField w) (op3Field w) (rs1Field w) cnt.iBit cnt.low) :
    Faithful cfg w i := by
  obtain ⟨cnt, rfl, hrefuse⟩ := withShiftCount_instr h
  refine faithful_of_encode (hk cnt).1 (hk cnt).2 fun hp => ?_
  obtain ⟨hi, hlow⟩ := hrefuse hp
  rw [henc cnt, ← hi, ← hlow, ← format3_eta w]

/-- The row of the trap instructions. -/
theorem faithful_of_trapNumber (hop : opField w = 2#2) (hop3 : op3Field w = 0x3A#6)
    (h : withTrapNumber cfg w (ticcOfCond (condField w) (rs1Field w)) = .instr i) : Faithful cfg w i := by
  obtain ⟨num, rfl, hrefuse⟩ := withTrapNumber_instr h
  rw [← condCode_condOfCode (condField w), ticcOfCond_code]
  refine faithful_of_encode (trapOf_plain ..).1 (trapOf_plain ..).2 fun hp => ?_
  obtain ⟨ha, hi, hlow⟩ := hrefuse hp
  have hrd : rdField w = 0#1 ++ condField w := by rw [rdField_eq_append, ha]; rfl
  rw [encode_trapOf, condCode_condOfCode, encodeTicc, ← hi, ← hlow, ← hrd, ← hop, ← hop3, ← format3_eta w]

/-- The row of the branches. -/
theorem faithful_of_branch (hop : opField w = 0#2) (hop2 : op2Field w = 0b010#3) :
    Faithful cfg w (biccOfCond (condField w) (aField w == 1#1) (imm22Field w)) := by
  rw [← condCode_condOfCode (condField w), biccOfCond_code]
  refine faithful_of_encode (branchOf_plain ..).1 (branchOf_plain ..).2 fun _ => ?_
  rw [encode_branchOf, condCode_condOfCode, encodeBicc, ofBool_beq_one, ← rdField_eq_append, ← hop2,
    ← format2_eta w hop]

/-- A row that reads a state register, whose bits below op3 are unused; for RDY and RDASR the field rs1 is used. -/
theorem faithful_of_read {rs1 : RegIdx} (hop : opField w = 2#2) (hwf : i.wellFormed = true)
    (hr : readsStateRegister i = true) (henc : encode cfg i = encodeRead (op3Field w) (rdField w) rs1)
    (hrs1 : (∃ rd, i = .rdy rd) ∨ (∃ rd asr, i = .rdasr rd asr) → rs1 = rs1Field w) : Faithful cfg w i := by
  refine ⟨hwf, fun _ h => absurd h (by simp [hr]), fun _ => ?_, fun h => ?_⟩
  · rw [henc, encodeRead, extract_high_format3, extract_high_eq, hop]
  · rw [henc]
    exact (rs1Field_format3 ..).trans (hrs1 h)

theorem decodeFormat2_faithful (hop : opField w = 0#2) (h : decodeFormat2 w = .instr i) : Faithful cfg w i := by
  have hword := format2_eta w hop
  rw [decodeFormat2] at h
  split at h
  next hop2 =>
    cases h
    rw [hop2] at hword
    exact faithful_of_encode rfl rfl fun _ => hword.symm
  next hop2 =>
    cases h
    exact faithful_of_branch hop hop2
  next hop2 =>
    rw [hop2] at hword
    split at h
    next hzero =>
      cases h
      rw [hzero.1, hzero.2] at hword
      exact faithful_of_encode rfl rfl fun _ => hword.symm
    next hne =>
      cases h
      exact faithful_of_encode (by simpa [Instr.wellFormed, imp_iff_not_or] using hne) rfl fun _ => hword.symm
  all_goals cases h

/-- The row of RDY and RDASR, which the field rs1 tells apart. -/
theorem readAsr_faithful (hop : opField w = 2#2) (hop3 : op3Field w = 0x28#6)
    (h : (if rs1Field w = 0 then Decoded.instr (.rdy (rdField w)) else .instr (.rdasr (rdField w) (rs1Field w))) =
      .instr i) : Faithful cfg w i := by
  split at h
  next hz =>
    cases h
    exact faithful_of_read hop rfl rfl (by rw [hop3]; rfl) fun _ => hz.symm
  next hne =>
    cases h
    exact faithful_of_read hop (by simpa [Instr.wellFormed] using hne) rfl (by rw [hop3]; rfl) fun _ => rfl

/-- The row of WRY and WRASR, which the field rd tells apart. -/
theorem writeAsr_faithful (hop : opField w = 2#2) (hop3 : op3Field w = 0x30#6)
    (h : (if rdField w = 0 then withOperand2 cfg w true (.wry (rs1Field w))
      else withOperand2 cfg w true (.wrasr (rdField w) (rs1Field w))) = .instr i) : Faithful cfg w i := by
  split at h
  next hz => exact faithful_of_operand2 h (fun _ => ⟨rfl, rfl⟩) fun _ _ => by rw [hop, hop3, hz]; rfl
  next hne =>
    exact faithful_of_operand2 h (fun _ => ⟨by simpa [Instr.wellFormed] using hne, rfl⟩) fun _ _ => by
      rw [hop, hop3]; rfl

theorem decodeArith_faithful (hop : opField w = 2#2) (h : decodeArith cfg w = .instr i) : Faithful cfg w i := by
  unfold decodeArith at h
  dsimp only at h
  split at h
  case h_10 _ hop3 | h_12 _ hop3 =>
    split at h
    next hsel =>
      exact faithful_of_operand2 h (fun _ => ⟨rfl, rfl⟩) fun o _ => by rw [hop, hop3, encode_smul, hsel]; rfl
    next => cases h
  case h_25 _ hop3 | h_27 _ hop3 =>
    split at h
    next hsel =>
      exact faithful_of_operand2 h (fun _ => ⟨rfl, rfl⟩) fun o _ => by rw [hop, hop3, encode_smulcc, hsel]; rfl
    next => cases h
  case h_36 _ hop3 | h_37 _ hop3 | h_38 _ hop3 =>
    exact faithful_of_shiftCount h (fun _ => ⟨rfl, rfl⟩) fun _ => by rw [hop, hop3]; rfl
  case h_39 _ hop3 => exact readAsr_faithful hop hop3 h
  case h_40 _ hop3 | h_41 _ hop3 | h_42 _ hop3 =>
    cases h
    exact faithful_of_read hop rfl rfl (by rw [hop3]; rfl) (by rintro (⟨_, h⟩ | ⟨_, _, h⟩) <;> cases h)
  case h_43 _ hop3 => exact writeAsr_faithful hop hop3 h
  case h_44 _ hop3 | h_45 _ hop3 | h_46 _ hop3 | h_52 _ hop3 =>
    exact faithful_of_operand2 h (fun _ => ⟨rfl, rfl⟩) fun o hrd => by rw [hop, hop3, eq_of_beq hrd]; rfl
  case h_47 | h_48 | h_49 | h_50 | h_54 | h_57 => cases h
  case h_53 _ hop3 => exact faithful_of_trapNumber hop hop3 h
  all_goals
    next hop3 => exact faithful_of_operand2 h (fun _ => ⟨rfl, rfl⟩) fun _ _ => by rw [hop, hop3]; rfl

theorem decodeMemory_faithful (hop : opField w = 3#2) (h : decodeMemory cfg w = .instr i) : Faithful cfg w i := by
  unfold decodeMemory at h
  dsimp only at h
  split at h
  case h_1 _ hop3 | h_2 _ hop3 | h_3 _ hop3 | h_4 _ hop3 | h_5 _ hop3 | h_6 _ hop3 | h_7 _ hop3 | h_8 _ hop3
    | h_9 _ hop3 | h_10 _ hop3 | h_11 _ hop3 | h_12 _ hop3 =>
    exact faithful_of_operand2 h (fun _ => ⟨rfl, rfl⟩) fun _ _ => by rw [hop, hop3]; rfl
  all_goals cases h

/-- Settles O2: by the map the word's op selects, and in it by the row its op2 or op3 selects. -/
theorem decodedWordIsTheEncoding : Obligations.DecodedWordIsTheEncoding := by
  intro cfg w i h
  show Faithful cfg w i
  rw [decode] at h
  split at h
  next hop => exact decodeFormat2_faithful hop h
  next hop =>
    cases h
    exact faithful_of_encode rfl rfl fun _ => (format1_eta w hop).symm
  next hop => exact decodeArith_faithful hop h
  next h0 h1 h2 =>
    have hop : opField w = 3#2 := (show ∀ op : BitVec 2, op ≠ 0#2 → op ≠ 1#2 → op ≠ 2#2 → op = 3#2 by decide) _ h0 h1 h2
    exact decodeMemory_faithful hop h

end

end Sys2Proof.Machine
end

section
/-! Words that are no instruction, and words with a nonzero reserved field (30_encoding.md rules R115 and R118 to R121). -/

namespace Sys2Proof.Machine

/-! ## Encodings outside the opcode table -/

/-- A word of op = 10 is decoded by its op3, whatever its other bits. -/
theorem decode_arith_rest {cfg : Config} {op3 : BitVec 6} {d : Decoded}
    (hrow : ∀ w, op3Field w = op3 → decodeArith cfg w = d) (rd : BitVec 5) (rest : BitVec 19) :
    decode cfg (2#2 ++ rd ++ op3 ++ rest) = d := by
  rw [format3_of_rest, decode_of_op2 (opField_format3 ..)]
  exact hrow _ (op3Field_format3 ..)

/-- A word of op = 11 is decoded by its op3, whatever its other bits. -/
theorem decode_memory_rest {cfg : Config} {op3 : BitVec 6} {d : Decoded}
    (hrow : ∀ w, op3Field w = op3 → decodeMemory cfg w = d) (rd : BitVec 5) (rest : BitVec 19) :
    decode cfg (3#2 ++ rd ++ op3 ++ rest) = d := by
  rw [format3_of_rest, decode_of_op3 (opField_format3 ..)]
  exact hrow _ (op3Field_format3 ..)

/-- A word of op = 00 is decoded by its op2, whatever its other bits. -/
theorem decode_format2_rest {cfg : Config} {op2 : BitVec 3} {d : Decoded}
    (hrow : ∀ w, op2Field w = op2 → decodeFormat2 w = d) (rd : BitVec 5) (low : BitVec 22) :
    decode cfg (0#2 ++ rd ++ op2 ++ low) = d := by
  show decode cfg (encodeFormat2 rd op2 low) = d
  rw [decode_of_op0 (opField_format2 ..)]
  exact hrow _ (op2Field_format2 ..)

/-- Settles O4: op2 and op3 select the row, and each of these rows takes no other field. -/
theorem encodingsOutsideTheTable : Obligations.EncodingsOutsideTheTable := by
  intro cfg rd low rest
  refine ⟨?_, ?_, ?_, ?_, ?_, ?_, ?_, ?_, ?_, ?_, fun hsel => ?_, fun hsel => ?_, ?_⟩
  case refine_1 =>
    intro op2 h
    fin_cases h <;> exact decode_format2_rest (fun w hw => by rw [decodeFormat2, hw]; rfl) ..
  case refine_2 | refine_7 | refine_8 =>
    intro op3 h
    fin_cases h <;> exact decode_arith_rest (fun w hw => by rw [decodeArith, hw]; rfl) ..
  case refine_3 | refine_4 | refine_9 | refine_10 =>
    intro op3 h
    fin_cases h <;> exact decode_memory_rest (fun w hw => by rw [decodeMemory, hw]; rfl) ..
  case refine_5 | refine_6 => exact decode_format2_rest (fun w hw => by rw [decodeFormat2, hw]; rfl) ..
  case refine_11 | refine_12 =>
    intro op3 h
    fin_cases h <;> exact decode_arith_rest (fun w hw => by simp only [decodeArith, hw, hsel]; rfl) ..
  case refine_13 => exact decode_arith_rest (fun w hw => by rw [decodeArith, hw]; rfl) ..

/-! ## Nonzero reserved fields -/

/-- With a nonzero reserved field the policy decides. -/
theorem reservedCheck_false (cfg : Config) (i : Instr) : reservedCheck cfg false i = reservedOutcome cfg i := by
  rw [reservedCheck, reservedOutcome]
  cases cfg.reservedPolicy <;> rfl

/-- What bits 12:5 of a register form do: refused or ignored, but that a read of a state register ignores them. -/
def AsiOutcome (cfg : Config) (i : Instr) (d : Decoded) : Prop :=
  d = if readsStateRegister i then .instr i else reservedOutcome cfg i

theorem asiOutcome_of_plain {cfg : Config} {i : Instr} {d : Decoded} (hr : readsStateRegister i = false)
    (hd : d = reservedOutcome cfg i) : AsiOutcome cfg i d := by
  rw [AsiOutcome, hr]
  exact hd

section

variable {cfg : Config} {w w' : Word} {i : Instr}

/-- Two words of register form that differ in bits 12:5 alone, which are zero in the first and not in the second. -/
structure DifferInAsi (w w' : Word) : Prop where
  i : iField w = 0#1
  i' : iField w' = 0#1
  asi : asiField w = 0
  asi' : asiField w' ≠ 0
  rs2 : rs2Field w' = rs2Field w

theorem DifferInAsi.operand2 (hw : DifferInAsi w w') {ok : Bool} {k : Operand2 → Instr}
    (hk : ∀ o, readsStateRegister (k o) = false) (h : withOperand2 cfg w ok k = .instr i) :
    AsiOutcome cfg i (withOperand2 cfg w' ok k) := by
  rw [withOperand2, if_neg (by rw [hw.i]; decide)] at h
  obtain ⟨rfl, -⟩ := reservedCheck_instr h
  refine asiOutcome_of_plain (hk _) ?_
  rw [withOperand2, if_neg (by rw [hw.i']; decide), hw.rs2, beq_false_of_ne hw.asi', Bool.and_false,
    reservedCheck_false]

theorem DifferInAsi.shiftCount (hw : DifferInAsi w w') {k : ShiftCount → Instr}
    (hk : ∀ cnt, readsStateRegister (k cnt) = false) (h : withShiftCount cfg w k = .instr i) :
    AsiOutcome cfg i (withShiftCount cfg w' k) := by
  obtain ⟨rfl, -⟩ := reservedCheck_instr h
  refine asiOutcome_of_plain (hk _) ?_
  rw [withShiftCount, hw.rs2, hw.i, hw.i', beq_false_of_ne hw.asi', reservedCheck_false]

theorem DifferInAsi.trapNumber (hw : DifferInAsi w w') {k : TrapNumber → Instr}
    (hk : ∀ num, readsStateRegister (k num) = false) (h : withTrapNumber cfg w k = .instr i) :
    AsiOutcome cfg i (withTrapNumber cfg w' k) := by
  rw [withTrapNumber, if_neg (by rw [hw.i]; decide)] at h
  obtain ⟨rfl, -⟩ := reservedCheck_instr h
  refine asiOutcome_of_plain (hk _) ?_
  rw [withTrapNumber, if_neg (by rw [hw.i']; decide), hw.rs2, beq_false_of_ne hw.asi', Bool.and_false,
    reservedCheck_false]

/-- A row that reads a state register takes the same instruction from both words. -/
theorem asiOutcome_of_read (hr : readsStateRegister i = true) : AsiOutcome cfg i (.instr i) := by
  rw [AsiOutcome, hr]
  rfl

theorem ticcOfCond_readsStateRegister (c : BitVec 4) (rs1 : RegIdx) (num : TrapNumber) :
    readsStateRegister (ticcOfCond c rs1 num) = false := by
  rw [← condCode_condOfCode c, ticcOfCond_code]
  exact (trapOf_plain ..).2

end

/-- The two words of the first clause. -/
theorem differInAsi_format3 {op : BitVec 2} {rd rs1 rs2 : BitVec 5} {op3 : BitVec 6} {bits : BitVec 8} (hb : bits ≠ 0) :
    DifferInAsi (encodeFormat3 op rd op3 rs1 0#1 (0#8 ++ rs2)) (encodeFormat3 op rd op3 rs1 0#1 (bits ++ rs2)) where
  i := iField_format3 ..
  i' := iField_format3 ..
  asi := (asiField_format3 ..).trans (extract_high (0#8) rs2)
  asi' := by rw [asiField_format3, extract_high bits rs2]; exact hb
  rs2 := by rw [rs2Field_format3, rs2Field_format3, extract_low bits rs2, extract_low (0#8) rs2]

theorem decodeArith_asi {cfg : Config} {rd rs1 rs2 : BitVec 5} {op3 : BitVec 6} {bits : BitVec 8} {i : Instr}
    (hb : bits ≠ 0) (h : decodeArith cfg (encodeFormat3 2#2 rd op3 rs1 0#1 (0#8 ++ rs2)) = .instr i) :
    AsiOutcome cfg i (decodeArith cfg (encodeFormat3 2#2 rd op3 rs1 0#1 (bits ++ rs2))) := by
  have hw := differInAsi_format3 (op := 2#2) (rd := rd) (rs1 := rs1) (rs2 := rs2) (op3 := op3) hb
  generalize hword : encodeFormat3 2#2 rd op3 rs1 0#1 (0#8 ++ rs2) = w at h hw
  generalize hword' : encodeFormat3 2#2 rd op3 rs1 0#1 (bits ++ rs2) = w' at hw ⊢
  have hop3 : op3Field w' = op3Field w := by rw [← hword, ← hword', op3Field_format3, op3Field_format3]
  have hrd : rdField w' = rdField w := by rw [← hword, ← hword', rdField_format3, rdField_format3]
  have hrs1 : rs1Field w' = rs1Field w := by rw [← hword, ← hword', rs1Field_format3, rs1Field_format3]
  have hcond : condField w' = condField w := by rw [← hword, ← hword', condField_format3, condField_format3]
  unfold decodeArith at h ⊢
  rw [hop3, hrd, hrs1, hcond]
  dsimp only at h ⊢
  split at h
  case h_10 | h_12 | h_25 | h_27 =>
    split at h
    next hsel => rw [if_pos hsel]; exact hw.operand2 (fun _ => rfl) h
    next => cases h
  case h_36 | h_37 | h_38 => exact hw.shiftCount (fun _ => rfl) h
  case h_39 =>
    split at h
    next hz => cases h; rw [if_pos hz]; exact asiOutcome_of_read rfl
    next hne => cases h; rw [if_neg hne]; exact asiOutcome_of_read rfl
  case h_40 | h_41 | h_42 => cases h; exact asiOutcome_of_read rfl
  case h_43 =>
    split at h
    next hz => rw [if_pos hz]; exact hw.operand2 (fun _ => rfl) h
    next hne => rw [if_neg hne]; exact hw.operand2 (fun _ => rfl) h
  case h_47 | h_48 | h_49 | h_50 | h_54 | h_57 => cases h
  case h_53 => exact hw.trapNumber (fun _ => ticcOfCond_readsStateRegister ..) h
  all_goals exact hw.operand2 (fun _ => rfl) h

theorem decodeMemory_asi {cfg : Config} {rd rs1 rs2 : BitVec 5} {op3 : BitVec 6} {bits : BitVec 8} {i : Instr}
    (hb : bits ≠ 0) (h : decodeMemory cfg (encodeFormat3 3#2 rd op3 rs1 0#1 (0#8 ++ rs2)) = .instr i) :
    AsiOutcome cfg i (decodeMemory cfg (encodeFormat3 3#2 rd op3 rs1 0#1 (bits ++ rs2))) := by
  have hw := differInAsi_format3 (op := 3#2) (rd := rd) (rs1 := rs1) (rs2 := rs2) (op3 := op3) hb
  generalize hword : encodeFormat3 3#2 rd op3 rs1 0#1 (0#8 ++ rs2) = w at h hw
  generalize hword' : encodeFormat3 3#2 rd op3 rs1 0#1 (bits ++ rs2) = w' at hw ⊢
  have hop3 : op3Field w' = op3Field w := by rw [← hword, ← hword', op3Field_format3, op3Field_format3]
  have hrd : rdField w' = rdField w := by rw [← hword, ← hword', rdField_format3, rdField_format3]
  have hrs1 : rs1Field w' = rs1Field w := by rw [← hword, ← hword', rs1Field_format3, rs1Field_format3]
  unfold decodeMemory at h ⊢
  rw [hop3, hrd, hrs1]
  dsimp only at h ⊢
  split at h
  case h_1 | h_2 | h_3 | h_4 | h_5 | h_6 | h_7 | h_8 | h_9 | h_10 | h_11 | h_12 => exact hw.operand2 (fun _ => rfl) h
  all_goals cases h

/-- An immediate shift with nonzero bits 12:5. -/
theorem decode_shift_reserved {cfg : Config} {op3 : BitVec 6} {k : RegIdx → RegIdx → ShiftCount → Instr}
    (hrow : ∀ w, op3Field w = op3 → decodeArith cfg w = withShiftCount cfg w (k (rdField w) (rs1Field w)))
    {rd rs1 shcnt : BitVec 5} {bits : BitVec 8} (hb : bits ≠ 0) :
    decode cfg (encodeFormat3 2#2 rd op3 rs1 1#1 (bits ++ shcnt)) = reservedOutcome cfg (k rd rs1 (.imm shcnt)) := by
  rw [decode_of_op2 (opField_format3 ..), hrow _ (op3Field_format3 ..), withShiftCount, asiField_format3, iField_format3,
    rs2Field_format3, rdField_format3, rs1Field_format3, extract_high bits shcnt, extract_low bits shcnt,
    beq_false_of_ne hb, reservedCheck_false, if_pos rfl]

/-- The trap instruction of a word, under the check of its reserved fields. -/
theorem decode_ticc (cfg : Config) (k : Cond) (rs1 : BitVec 5) (b i : BitVec 1) (low : BitVec 13) :
    decode cfg (encodeFormat3 2#2 (b ++ condCode k) 0x3A#6 rs1 i low) =
      withTrapNumber cfg (encodeFormat3 2#2 (b ++ condCode k) 0x3A#6 rs1 i low) (trapOf k rs1) := by
  have hrow : ∀ w, op3Field w = 0x3A#6 →
      decodeArith cfg w = withTrapNumber cfg w (ticcOfCond (condField w) (rs1Field w)) := fun w hw => by
    rw [decodeArith, hw]; rfl
  rw [decode_of_op2 (opField_format3 ..), hrow _ (op3Field_format3 ..), condField_format3, rs1Field_format3,
    extract_low b (condCode k), funext fun num => ticcOfCond_code k rs1 num]

theorem decode_ticc_reg_reserved (cfg : Config) (k : Cond) (rs1 rs2 : BitVec 5) {b : BitVec 1} {bits : BitVec 8}
    (h : b ≠ 0 ∨ bits ≠ 0) :
    decode cfg (encodeFormat3 2#2 (b ++ condCode k) 0x3A#6 rs1 0#1 (bits ++ rs2)) =
      reservedOutcome cfg (trapOf k rs1 (.reg rs2)) := by
  have hbad : (b == 0 && bits == 0) = false := by simpa [← imp_iff_not_or] using h
  rw [decode_ticc, withTrapNumber, iField_format3, if_neg (by decide), aField_format3, asiField_format3, rs2Field_format3,
    extract_high b (condCode k), extract_high bits rs2, extract_low bits rs2, hbad, reservedCheck_false]

theorem decode_ticc_imm_reserved (cfg : Config) (k : Cond) (rs1 : BitVec 5) (imm7 : BitVec 7) {b : BitVec 1}
    {bits : BitVec 6} (h : b ≠ 0 ∨ bits ≠ 0) :
    decode cfg (encodeFormat3 2#2 (b ++ condCode k) 0x3A#6 rs1 1#1 (bits ++ imm7)) =
      reservedOutcome cfg (trapOf k rs1 (.imm imm7)) := by
  have hbad : (b == 0 && bits == 0) = false := by simpa [← imp_iff_not_or] using h
  rw [decode_ticc, withTrapNumber, iField_format3, if_pos rfl, aField_format3, ticcHighField_format3, imm7Field_format3,
    extract_high b (condCode k), extract_high bits imm7, extract_low bits imm7, hbad, reservedCheck_false]

section

variable {cfg : Config} {op3 : BitVec 6} {k : RegIdx → Operand2 → Instr}

/-- RETT, WRPSR, WRWIM or WRTBR in register form with a nonzero field rd or nonzero bits 12:5. -/
theorem decode_noRd_reg_reserved
    (hrow : ∀ w, op3Field w = op3 → decodeArith cfg w = withOperand2 cfg w (rdField w == 0) (k (rs1Field w)))
    {rd rs1 rs2 : BitVec 5} {bits : BitVec 8} (h : rd ≠ 0 ∨ bits ≠ 0) :
    decode cfg (encodeFormat3 2#2 rd op3 rs1 0#1 (bits ++ rs2)) = reservedOutcome cfg (k rs1 (.reg rs2)) := by
  have hbad : (rd == 0 && bits == 0) = false := by simpa [← imp_iff_not_or] using h
  rw [decode_of_op2 (opField_format3 ..), hrow _ (op3Field_format3 ..), withOperand2, iField_format3, if_neg (by decide),
    asiField_format3, rs2Field_format3, rdField_format3, rs1Field_format3, extract_high bits rs2, extract_low bits rs2,
    hbad, reservedCheck_false]

/-- RETT, WRPSR, WRWIM or WRTBR in immediate form with a nonzero field rd. -/
theorem decode_noRd_imm_reserved
    (hrow : ∀ w, op3Field w = op3 → decodeArith cfg w = withOperand2 cfg w (rdField w == 0) (k (rs1Field w)))
    {rd rs1 : BitVec 5} (simm13 : BitVec 13) (h : rd ≠ 0) :
    decode cfg (encodeFormat3 2#2 rd op3 rs1 1#1 simm13) = reservedOutcome cfg (k rs1 (.imm simm13)) := by
  rw [decode_of_op2 (opField_format3 ..), hrow _ (op3Field_format3 ..), withOperand2, iField_format3, if_pos rfl,
    simm13Field_format3, rdField_format3, rs1Field_format3, beq_false_of_ne h, reservedCheck_false]

end

/-- Settles O5: every reserved field is an argument of one `reservedCheck`, which a nonzero field makes false. -/
theorem reservedFieldFollowsPolicy : Obligations.ReservedFieldFollowsPolicy := by
  refine ⟨?registerForms, ?shifts, ?traps, ?noRd⟩
  case registerForms =>
    rintro cfg op rd rs1 rs2 op3 bits i (rfl | rfl) hb h
    · have hop : ∀ low, decode cfg (encodeFormat3 2#2 rd op3 rs1 0#1 low) =
          decodeArith cfg (encodeFormat3 2#2 rd op3 rs1 0#1 low) := fun low => decode_of_op2 (opField_format3 ..)
      exact (hop _).trans (decodeArith_asi hb ((hop _).symm.trans h))
    · have hop : ∀ low, decode cfg (encodeFormat3 3#2 rd op3 rs1 0#1 low) =
          decodeMemory cfg (encodeFormat3 3#2 rd op3 rs1 0#1 low) := fun low => decode_of_op3 (opField_format3 ..)
      exact (hop _).trans (decodeMemory_asi hb ((hop _).symm.trans h))
  case shifts =>
    intro cfg rd rs1 shcnt bits hb
    refine ⟨?_, ?_, ?_⟩ <;> exact decode_shift_reserved (fun w hw => by rw [decodeArith, hw]; rfl) hb
  case traps =>
    exact fun cfg k rs1 rs2 imm7 b bits8 bits6 =>
      ⟨decode_ticc_reg_reserved cfg k rs1 rs2, decode_ticc_imm_reserved cfg k rs1 imm7⟩
  case noRd =>
    intro cfg rd rs1 rs2 bits simm13
    constructor
    · intro h
      refine ⟨?_, ?_, ?_, ?_⟩ <;> exact decode_noRd_reg_reserved (fun w hw => by rw [decodeArith, hw]; rfl) h
    · intro h
      refine ⟨?_, ?_, ?_, ?_⟩ <;> exact decode_noRd_imm_reserved (fun w hw => by rw [decodeArith, hw]; rfl) simm13 h

end Sys2Proof.Machine
end

section
/-! The flags as overflow and as comparisons (40_arithmetic.md rules R131, R132 and R156, 43_branch.md rule R231): the
result an addition or subtraction writes, when it does not fit, and what the conditions say after SUBcc. -/

namespace Sys2Proof.Machine

/-! ## The written result -/

theorem bool_toNat_le (c : Bool) : c.toNat ≤ 1 := by cases c <;> decide

theorem carryWord_toNat (c : Bool) : (carryWord c).toNat = c.toNat := by cases c <;> rfl

/-- The exact sum, modulo 2^32, is the word written. -/
theorem ofNat_sum (a b : Word) (c : Bool) : BitVec.ofNat 32 (a.toNat + b.toNat + c.toNat) = a + b + carryWord c := by
  apply BitVec.eq_of_toNat_eq
  rw [BitVec.toNat_ofNat, BitVec.toNat_add, BitVec.toNat_add, carryWord_toNat]
  omega

/-- The exact difference, modulo 2^32, is the word written. -/
theorem ofInt_difference (a b : Word) (c : Bool) :
    BitVec.ofInt 32 ((a.toNat : Int) - b.toNat - c.toNat) = a - b - carryWord c := by
  have hc := bool_toNat_le c
  apply BitVec.eq_of_toNat_eq
  rw [BitVec.toNat_ofInt, BitVec.toNat_sub, BitVec.toNat_sub, carryWord_toNat]
  omega

theorem addFlags_eq (a b : Word) (c : Bool) :
    addFlags a b c =
      { n := (a + b + carryWord c).msb
        z := a + b + carryWord c == 0
        v := a.msb == b.msb && (a + b + carryWord c).msb != a.msb
        c := decide (2 ^ 32 ≤ a.toNat + b.toNat + c.toNat) } := by
  rw [← ofNat_sum]; rfl

theorem subFlags_eq (a b : Word) (c : Bool) :
    subFlags a b c =
      { n := (a - b - carryWord c).msb
        z := a - b - carryWord c == 0
        v := a.msb != b.msb && (a - b - carryWord c).msb != a.msb
        c := decide ((a.toNat : Int) - b.toNat - c.toNat < 0) } := by
  rw [← ofInt_difference]; rfl

/-! ## Signed values -/

theorem msb_iff (a : Word) : a.msb = true ↔ 2 ^ 31 ≤ a.toNat := by
  rw [BitVec.msb_eq_decide, decide_eq_true_iff]

theorem toInt_eq (a : Word) : a.toInt = if 2 ^ 31 ≤ a.toNat then (a.toNat - 2 ^ 32 : Int) else a.toNat := by
  rw [BitVec.toInt_eq_toNat_cond]
  split <;> split <;> omega

theorem msb_eq_iff (a b : Word) : a.msb = b.msb ↔ (2 ^ 31 ≤ a.toNat ↔ 2 ^ 31 ≤ b.toNat) := by
  rw [Bool.eq_iff_iff, msb_iff, msb_iff]

theorem toNat_sum (a b : Word) (c : Bool) :
    (a + b + carryWord c).toNat = (a.toNat + b.toNat + c.toNat) % 2 ^ 32 := by
  rw [← ofNat_sum, BitVec.toNat_ofNat]

theorem toNat_difference (a b : Word) (c : Bool) :
    ((a - b - carryWord c).toNat : Int) = ((a.toNat : Int) - b.toNat - c.toNat) % 2 ^ 32 := by
  rw [← ofInt_difference, BitVec.toNat_ofInt]
  omega

/-- The operands agree in sign and the result does not: exactly where the signed sum does not fit. -/
theorem add_overflow_iff (a b : Word) (c : Bool) :
    (a.msb == b.msb && (a + b + carryWord c).msb != a.msb) = true ↔
      (a + b + carryWord c).toInt ≠ a.toInt + b.toInt + c.toNat := by
  have hr := toNat_sum a b c
  have ha := a.isLt
  have hb := b.isLt
  have hc := bool_toNat_le c
  rw [Bool.and_eq_true, beq_iff_eq, bne_iff_ne, Ne, msb_eq_iff, msb_eq_iff, toInt_eq,
    toInt_eq a, toInt_eq b, hr]
  omega

/-- The operands differ in sign and the result differs from the first: exactly where the signed difference does not
fit. -/
theorem sub_overflow_iff (a b : Word) (c : Bool) :
    (a.msb != b.msb && (a - b - carryWord c).msb != a.msb) = true ↔
      (a - b - carryWord c).toInt ≠ a.toInt - b.toInt - c.toNat := by
  have hr := toNat_difference a b c
  have ha := a.isLt
  have hb := b.isLt
  have hc := bool_toNat_le c
  rw [Bool.and_eq_true, bne_iff_ne, bne_iff_ne, Ne, Ne, msb_eq_iff, msb_eq_iff, toInt_eq,
    toInt_eq a, toInt_eq b]
  omega

/-- Settles O15: `subFlags` says the same of each flag, with the sign bit for bit 31. -/
theorem subtractionFlags : Obligations.SubtractionFlags := by
  intro a b bin
  have hbin : ((if bin then 1 else 0 : Int)) = bin.toNat := by cases bin <;> rfl
  have hv : ∀ x y r : Bool, (x != y && r != x) = decide (x ≠ y ∧ r ≠ x) := by decide
  simp only [subFlags, hbin, BitVec.msb_eq_getLsbD_last, hv, Bool.beq_eq_decide_eq _ (0 : Word)]

/-- Settles O16: C compares the exact result with its word, V is `add_overflow_iff` and `sub_overflow_iff`. -/
theorem flagsMeanOverflow : Obligations.FlagsMeanOverflow := by
  intro a b c k i
  have hi : i = c.toNat := by cases c <;> rfl
  have hadd := toNat_sum a b c
  have hsub := toNat_difference a b c
  have hc := bool_toNat_le c
  rw [hi, addFlags_eq, subFlags_eq]
  refine ⟨add_overflow_iff a b c, ?_, sub_overflow_iff a b c, ?_, rfl, Bool.beq_eq_decide_eq _ _, rfl,
    Bool.beq_eq_decide_eq _ _⟩
  · show decide _ = true ↔ ((a + b + carryWord c).toNat : Int) ≠ _
    rw [hadd, decide_eq_true_iff]
    omega
  · show decide _ = true ↔ ((a - b - carryWord c).toNat : Int) ≠ _
    rw [hsub, decide_eq_true_iff]
    omega

/-! ## The conditions -/

/-- The condition whose cond field differs in bit 3. -/
def negation : Cond → Cond
  | .a => .n
  | .n => .a
  | .ne => .e
  | .e => .ne
  | .g => .le
  | .le => .g
  | .ge => .l
  | .l => .ge
  | .gu => .leu
  | .leu => .gu
  | .cc => .cs
  | .cs => .cc
  | .pos => .neg
  | .neg => .pos
  | .vc => .vs
  | .vs => .vc

theorem condCode_negation (k : Cond) : condCode (negation k) = condCode k ^^^ 0b1000#4 := by cases k <;> rfl

theorem condTrue_negation (k : Cond) (f : Icc) : condTrue (negation k) f = !condTrue k f := by
  cases k <;> simp only [negation, condTrue, Bool.not_not, Bool.not_true, Bool.not_false]

theorem condCode_injective {j k : Cond} (h : condCode j = condCode k) : j = k := by
  rw [← condOfCode_condCode j, h, condOfCode_condCode]

/-- After SUBcc, Z says that the operands are equal. -/
theorem subFlags_z (a b : Word) : (subFlags a b false).z = decide (a = b) := by
  have hb := b.isLt
  have hr := toNat_difference a b false
  rw [subFlags_eq, Bool.eq_iff_iff, decide_eq_true_iff, beq_iff_eq, ← BitVec.toNat_inj, ← BitVec.toNat_inj]
  simp only [Bool.toNat_false] at hr
  show (a - b - carryWord false).toNat = 0 ↔ _
  omega

/-- After SUBcc, C says that the first operand is below the second, unsigned. -/
theorem subFlags_c (a b : Word) : (subFlags a b false).c = decide (a.toNat < b.toNat) := by
  rw [subFlags_eq, Bool.eq_iff_iff, decide_eq_true_iff, decide_eq_true_iff, Bool.toNat_false]
  omega

/-- After SUBcc, N and V differ where the first operand is below the second, signed: where the subtraction overflows
the sign of the result is wrong and V says so. -/
theorem subFlags_n_xor_v (a b : Word) :
    ((subFlags a b false).n ^^ (subFlags a b false).v) = decide (a.toInt < b.toInt) := by
  have hxor : ∀ x y : Bool, (x ^^ y) = true ↔ (x = true ↔ ¬y = true) := by decide
  have hr := toNat_difference a b false
  have ha := a.isLt
  have hb := b.isLt
  simp only [Bool.toNat_false] at hr
  rw [subFlags_eq, Bool.eq_iff_iff, decide_eq_true_iff, hxor, sub_overflow_iff, msb_iff, Bool.toNat_false, toInt_eq,
    toInt_eq a, toInt_eq b]
  omega

/-- Settles O30: the table is the definition, a condition and its negation differ in bit 3 of their code, and after
SUBcc each condition is Z, C, N xor V or a combination of them. -/
theorem conditionsCompare : Obligations.ConditionsCompare := by
  refine ⟨fun f => ⟨rfl, rfl, rfl, rfl, rfl, rfl, rfl, rfl, rfl, rfl, rfl, rfl, rfl, rfl, rfl, rfl⟩, ?_, ?_⟩
  · intro f j k h
    rw [← condCode_negation] at h
    rw [condCode_injective h, condTrue_negation]
  · intro a b f
    have hsigned : a = b ↔ a.toInt = b.toInt := BitVec.toInt_inj.symm
    have hunsigned : a = b ↔ a.toNat = b.toNat := BitVec.toNat_inj.symm
    simp only [f, condTrue, subFlags_z, subFlags_c, subFlags_n_xor_v, Bool.not_eq_true', Bool.or_eq_true,
      Bool.or_eq_false_iff, decide_eq_true_iff, decide_eq_false_iff_not]
    refine ⟨?_, ?_, ?_, trivial, ?_, ?_, ?_, trivial, trivial, trivial⟩
    · rw [hsigned]; omega
    · rw [hsigned]; omega
    · omega
    · rw [hunsigned]; omega
    · rw [hunsigned]; omega
    · omega

end Sys2Proof.Machine
end

section
/-! The instructions that compute, other than those that leave icc (40_arithmetic.md sections 2 to 5,
41_logical_shift_sethi.md sections 2 and 4): subtractions, tagged subtractions, multiply step, multiply, divide, the
logical instructions that write icc, SETHI and NOP; and the products and quotients as numbers. -/

namespace Sys2Proof.Machine

/-! ## What each instruction computes -/

section

variable (rd rs1 : RegIdx) (op2 : Operand2) (s : State)

theorem exec_subcc : exec (.subcc rd rs1 op2) s =
    writeResultCc rd (s.readReg rs1 - s.op2val op2) (subFlags (s.readReg rs1) (s.op2val op2) false) s := rfl

theorem exec_subxcc : exec (.subxcc rd rs1 op2) s =
    writeResultCc rd (s.readReg rs1 - s.op2val op2 - carryWord s.psr.icc.c)
      (subFlags (s.readReg rs1) (s.op2val op2) s.psr.icc.c) s := rfl

theorem exec_tsubcc : exec (.tsubcc rd rs1 op2) s =
    writeResultCc rd (s.readReg rs1 - s.op2val op2) (taggedSubFlags (s.readReg rs1) (s.op2val op2)) s := rfl

theorem exec_tsubcctv : exec (.tsubcctv rd rs1 op2) s =
    writeResultOrTagTrap rd (s.readReg rs1 - s.op2val op2) (taggedSubFlags (s.readReg rs1) (s.op2val op2)) s := rfl

theorem exec_umul : exec (.umul rd rs1 op2) s =
    writeProduct rd (unsignedProduct (s.readReg rs1) (s.op2val op2)) s := rfl

theorem exec_umulcc : exec (.umulcc rd rs1 op2) s =
    writeProductCc rd (unsignedProduct (s.readReg rs1) (s.op2val op2)) s := rfl

theorem exec_smul : exec (.smul rd rs1 op2) s =
    writeProduct rd (signedProduct (s.readReg rs1) (s.op2val op2)) s := rfl

theorem exec_smulcc : exec (.smulcc rd rs1 op2) s =
    writeProductCc rd (signedProduct (s.readReg rs1) (s.op2val op2)) s := rfl

theorem exec_udiv : exec (.udiv rd rs1 op2) s =
    divideBy (s.op2val op2) s (writeResult rd (unsignedQuotient s.y (s.readReg rs1) (s.op2val op2)).1 s) := rfl

theorem exec_udivcc : exec (.udivcc rd rs1 op2) s =
    divideBy (s.op2val op2) s (writeResultCc rd (unsignedQuotient s.y (s.readReg rs1) (s.op2val op2)).1
      (divFlags (unsignedQuotient s.y (s.readReg rs1) (s.op2val op2)).1
        (unsignedQuotient s.y (s.readReg rs1) (s.op2val op2)).2) s) := rfl

theorem exec_sdiv : exec (.sdiv rd rs1 op2) s =
    divideBy (s.op2val op2) s (writeResult rd (signedQuotient s.y (s.readReg rs1) (s.op2val op2)).1 s) := rfl

theorem exec_sdivcc : exec (.sdivcc rd rs1 op2) s =
    divideBy (s.op2val op2) s (writeResultCc rd (signedQuotient s.y (s.readReg rs1) (s.op2val op2)).1
      (divFlags (signedQuotient s.y (s.readReg rs1) (s.op2val op2)).1
        (signedQuotient s.y (s.readReg rs1) (s.op2val op2)).2) s) := rfl

theorem exec_andcc : exec (.andcc rd rs1 op2) s = writeLogicalCc rd (s.readReg rs1 &&& s.op2val op2) s := rfl

theorem exec_orcc : exec (.orcc rd rs1 op2) s = writeLogicalCc rd (s.readReg rs1 ||| s.op2val op2) s := rfl

theorem exec_xorcc : exec (.xorcc rd rs1 op2) s = writeLogicalCc rd (s.readReg rs1 ^^^ s.op2val op2) s := rfl

theorem exec_andncc : exec (.andncc rd rs1 op2) s = writeLogicalCc rd (s.readReg rs1 &&& ~~~(s.op2val op2)) s := rfl

theorem exec_orncc : exec (.orncc rd rs1 op2) s = writeLogicalCc rd (s.readReg rs1 ||| ~~~(s.op2val op2)) s := rfl

theorem exec_xnorcc : exec (.xnorcc rd rs1 op2) s = writeLogicalCc rd (~~~(s.readReg rs1 ^^^ s.op2val op2)) s := rfl

theorem exec_sethi (imm22 : BitVec 22) : exec (.sethi rd imm22) s = writeResult rd (imm22 ++ 0#10) s := rfl

end

/-! ## Subtractions -/

/-- Settles O8: each word is in a row of the op = 10 map, and each meaning is `writeResultCc` of its difference. -/
theorem subtractFlagRules : Obligations.SubtractFlagRules := by
  refine ⟨fun cfg => ?encodings, fun s rd rs1 op2 => ?meanings⟩
  case encodings =>
    constructor <;> exact encodes3_of_row fun w hw => by rw [decodeArith, hw]; rfl
  case meanings =>
    rw [exec_subcc, exec_subxcc]
    exact ⟨writeResultCc_spec .., writeResultCc_spec ..⟩

/-- Settles O10: the flags of a tagged subtract are those of the difference with `tag_bad` in V, and V decides whether
TSUBccTV traps. -/
theorem taggedSubtractRules : Obligations.TaggedSubtractRules := by
  refine ⟨fun cfg => ?encodings, fun s rd rs1 op2 => ?meanings⟩
  case encodings =>
    constructor <;> exact encodes3_of_row fun w hw => by rw [decodeArith, hw]; rfl
  case meanings =>
    simp only [exec_tsubcc, exec_tsubcctv, ← tagBad_eq]
    exact ⟨writeResultCc_spec .., fun hv => writeResultOrTagTrap_overflow hv ..,
      fun hv => writeResultOrTagTrap_completes hv ..⟩

/-! ## Multiply step and multiply -/

/-- Settles O11: the addends and the next Y are those of the model, and the state answered is the one the computing
meanings share. -/
theorem multiplyStepRule : Obligations.MultiplyStepRule :=
  ⟨fun _ => encodes3_of_row fun w hw => by rw [decodeArith, hw]; rfl,
    fun s rd _ _ => ⟨_, rfl, computes_advance s rd _ _ _⟩⟩

theorem logicFlags_eq (r : Word) : logicFlags r = ⟨r.getLsbD 31, r == 0, false, false⟩ := by
  rw [logicFlags, BitVec.msb_eq_getLsbD_last]

theorem lowWord_getLsbD_31 (p : BitVec 64) : (lowWord p).getLsbD 31 = p.getLsbD 31 := by
  rw [lowWord, BitVec.getLsbD_extractLsb', decide_eq_true (by decide), Bool.true_and, Nat.zero_add]

/-- Settles O12: `writeProduct` and `writeProductCc` of the two products; the rows of the signed ones are those that
SMUL_OP3 selects. -/
theorem multiplyRules : Obligations.MultiplyRules := by
  refine ⟨fun cfg => ?encodings, fun s rd rs1 op2 => ?meanings⟩
  case encodings =>
    refine ⟨encodes3_of_row ?_, encodes3_of_row ?_, fun hsel => ⟨encodes3_of_row ?_, encodes3_of_row ?_⟩,
      fun hsel => ⟨encodes3_of_row ?_, encodes3_of_row ?_⟩⟩ <;> intro w hw
    case refine_1 => rw [decodeArith, hw]; rfl
    case refine_2 => rw [decodeArith, hw]; rfl
    case refine_3 => exact decodeArith_smul cfg w (by rw [hw, hsel]; rfl)
    case refine_4 => exact decodeArith_smulcc cfg w (by rw [hw, hsel]; rfl)
    case refine_5 => exact decodeArith_smul cfg w (by rw [hw, hsel]; rfl)
    case refine_6 => exact decodeArith_smulcc cfg w (by rw [hw, hsel]; rfl)
  case meanings =>
    intro a b p q pl ql
    have hflags : ∀ x : BitVec 64, logicFlags (lowWord x) = ⟨x.getLsbD 31, lowWord x == 0, false, false⟩ := fun x => by
      rw [logicFlags_eq, lowWord_getLsbD_31]
    rw [exec_umul, exec_umulcc, exec_smul, exec_smulcc]
    refine ⟨writeProduct_spec .., ?_, writeProduct_spec .., ?_⟩
    · exact hflags p ▸ writeProductCc_spec rd p s
    · exact hflags q ▸ writeProductCc_spec rd q s

/-! ## Products as numbers -/

/-- A word of 64 bits from its two halves. -/
theorem highWord_append_lowWord (p : BitVec 64) : highWord p ++ lowWord p = p :=
  BitVec.extractLsb'_append_extractLsb'

theorem append_toNat (x y : Word) : (x ++ y).toNat = x.toNat * 2 ^ 32 + y.toNat := by
  rw [BitVec.toNat_append, ← Nat.shiftLeft_add_eq_or_of_lt y.isLt, Nat.shiftLeft_eq]

theorem append_toInt (x y : Word) : (x ++ y).toInt = x.toInt * 2 ^ 32 + y.toNat := by
  rw [BitVec.toInt_append, if_neg (by decide), mul_comm]

theorem unsignedProduct_toNat (a b : Word) : (unsignedProduct a b).toNat = a.toNat * b.toNat := by
  have hbound : a.toNat * b.toNat < 2 ^ 32 * 2 ^ 32 := Nat.mul_lt_mul'' a.isLt b.isLt
  rw [unsignedProduct, BitVec.toNat_ofNat, Nat.mod_eq_of_lt (by omega)]

/-- The product of two signed words is within 2^62, so 64 bits hold it. -/
theorem signedProduct_toInt (a b : Word) : (signedProduct a b).toInt = a.toInt * b.toInt := by
  have hbound : |a.toInt * b.toInt| ≤ 2 ^ 31 * 2 ^ 31 := by
    rw [abs_mul]
    have habs : ∀ x : Word, |x.toInt| ≤ 2 ^ 31 := fun x => by
      rw [abs_le, toInt_eq]
      have hx := x.isLt
      split <;> omega
    exact mul_le_mul (habs a) (habs b) (abs_nonneg _) (by decide)
  rw [abs_le] at hbound
  exact BitVec.toInt_ofInt_eq_self (by decide) (by omega) (by omega)

/-- Settles O18: each product is the append of its words; the two agree modulo 2^32. -/
theorem productWords : Obligations.ProductWords := by
  intro a b
  refine ⟨?_, ?_, ?_⟩
  · have hword : ∀ p : BitVec 64, lowWord p = BitVec.ofInt 32 p.toInt := fun p => by
      rw [lowWord, ← BitVec.setWidth_eq_extractLsb' (by decide)]
      apply BitVec.eq_of_toNat_eq
      rw [BitVec.toNat_setWidth, BitVec.toNat_ofInt, BitVec.toInt_eq_toNat_cond]
      split <;> omega
    have hunsigned : lowWord (unsignedProduct a b) = a * b := by
      apply BitVec.eq_of_toNat_eq
      rw [lowWord, BitVec.extractLsb'_toNat, Nat.shiftRight_zero, unsignedProduct_toNat, BitVec.toNat_mul]
    rw [hunsigned, hword, signedProduct_toInt, BitVec.ofInt_mul, BitVec.ofInt_toInt, BitVec.ofInt_toInt]
  · rw [← append_toNat, highWord_append_lowWord, unsignedProduct_toNat]
  · rw [← append_toInt, highWord_append_lowWord, signedProduct_toInt]

/-! ## Divide -/

theorem divFlags_eq (r : Word) (ovf : Bool) : divFlags r ovf = ⟨r.getLsbD 31, r == 0, ovf, false⟩ := by
  rw [divFlags, BitVec.msb_eq_getLsbD_last]

theorem unsignedQuotient_eq (y a b : Word) :
    unsignedQuotient y a b =
      let q := (y.toNat * 2 ^ 32 + a.toNat) / b.toNat
      let ovf := decide (0xFFFFFFFF < q)
      (if ovf then 0xFFFFFFFF else BitVec.ofNat 32 q, ovf) := by
  simp only [unsignedQuotient, append_toNat, decide_eq_true_eq]
  split
  case isTrue h => rw [decide_eq_true h]
  case isFalse h => rw [decide_eq_false h]

theorem signedQuotient_eq (y a b : Word) :
    signedQuotient y a b =
      let p := (y.toInt * 2 ^ 32 + a.toNat).tdiv b.toInt
      (if p > 2 ^ 31 - 1 then 0x7FFFFFFF else if p < -(2 ^ 31) then 0x80000000 else BitVec.ofInt 32 p,
        decide (p > 2 ^ 31 - 1) || decide (p < -(2 ^ 31))) := by
  simp only [signedQuotient, append_toInt]
  split
  case isTrue h => rw [decide_eq_true h, Bool.true_or]
  case isFalse h =>
    rw [decide_eq_false h, Bool.false_or]
    split
    case isTrue h' => rw [decide_eq_true h']
    case isFalse h' => rw [decide_eq_false h']

/-- Settles O13: `divideBy` of the two quotients. -/
theorem divideRules : Obligations.DivideRules := by
  refine ⟨fun cfg => ?encodings, fun s rd rs1 op2 => ?meanings⟩
  case encodings =>
    refine ⟨?_, ?_, ?_, ?_⟩ <;> exact encodes3_of_row fun w hw => by rw [decodeArith, hw]; rfl
  case meanings =>
    simp only [exec_udiv, exec_udivcc, exec_sdiv, exec_sdivcc, divFlags_eq, unsignedQuotient_eq, signedQuotient_eq]
    constructor
    · intro hb
      rw [hb]
      exact ⟨divideBy_zero .., divideBy_zero .., divideBy_zero .., divideBy_zero ..⟩
    · intro hb
      simp only [divideBy_nonzero hb]
      exact ⟨writeResult_spec .., writeResultCc_spec .., writeResult_spec .., writeResultCc_spec ..⟩

/-- A word that is not zero has a number that is not zero. -/
theorem toNat_pos_of_ne_zero {b : Word} (h : b ≠ 0) : 0 < b.toNat :=
  Nat.pos_of_ne_zero fun e => h (BitVec.eq_of_toNat_eq e)

/-- Where the divide does not overflow, the word is the quotient. -/
theorem unsignedQuotient_toNat {y a b : Word} (h : (unsignedQuotient y a b).2 = false) :
    (unsignedQuotient y a b).1.toNat = (y.toNat * 2 ^ 32 + a.toNat) / b.toNat := by
  rw [unsignedQuotient_eq] at h ⊢
  generalize (y.toNat * 2 ^ 32 + a.toNat) / b.toNat = q at h ⊢
  have hq : ¬0xFFFFFFFF < q := of_decide_eq_false h
  dsimp only
  rw [decide_eq_false hq, if_neg Bool.false_ne_true, BitVec.toNat_ofNat]
  omega

theorem signedQuotient_toInt {y a b : Word} (h : (signedQuotient y a b).2 = false) :
    (signedQuotient y a b).1.toInt = (y ++ a).toInt.tdiv b.toInt := by
  rw [append_toInt]
  rw [signedQuotient_eq] at h ⊢
  simp only [Bool.or_eq_false_iff, decide_eq_false_iff_not] at h
  obtain ⟨habove, hbelow⟩ := h
  simp only [if_neg habove, if_neg hbelow]
  exact BitVec.toInt_ofInt_eq_self (by decide) (by omega) (by omega)

/-- Settles O17: the quotients are `Nat` division and `Int.tdiv` of the dividend. -/
theorem quotientsDivide : Obligations.QuotientsDivide := by
  intro y a b hb
  have hpos := toNat_pos_of_ne_zero hb
  refine ⟨?_, fun h => ?_, fun h => ?_⟩
  · have hrange : 0xFFFFFFFF < (y.toNat * 2 ^ 32 + a.toNat) / b.toNat ↔
        2 ^ 32 * b.toNat ≤ y.toNat * 2 ^ 32 + a.toNat := Nat.le_div_iff_mul_le hpos
    have ha := a.isLt
    rw [unsignedQuotient_eq]
    simp only [decide_eq_true_eq, hrange]
    omega
  · rw [unsignedQuotient_toNat h]
    exact ⟨Nat.div_mul_le_self .., Nat.lt_mul_of_div_lt (Nat.lt_succ_self _) hpos⟩
  · have hne : b.toInt ≠ 0 := fun e => hb (BitVec.toInt_inj.1 e)
    have hmod : (y ++ a).toInt - (y ++ a).toInt.tdiv b.toInt * b.toInt = (y ++ a).toInt.tmod b.toInt := by
      have := Int.tmod_add_mul_tdiv (y ++ a).toInt b.toInt
      rw [mul_comm] at this
      omega
    rw [signedQuotient_toInt h, hmod, Int.natAbs_mul, Int.natAbs_tdiv, Int.natAbs_tmod]
    exact ⟨Nat.div_mul_le_self .., Nat.mod_lt _ (Int.natAbs_pos.2 hne)⟩

/-! ## Logical instructions that write icc, SETHI and NOP -/

theorem writeLogicalCc_spec (rd : RegIdx) (v : Word) (s : State) :
    ∃ t, writeLogicalCc rd v s = .next t ∧ Computes s t rd v ⟨v.getLsbD 31, v == 0, false, false⟩ s.y :=
  logicFlags_eq v ▸ writeResultCc_spec rd v (logicFlags v) s

/-- Settles O20: each word is in a row of the op = 10 map, and each meaning is `writeLogicalCc` of its bitwise
result. -/
theorem logicalFlagRules : Obligations.LogicalFlagRules := by
  refine ⟨fun cfg => ?encodings, fun s rd rs1 op2 => ?meanings⟩
  case encodings =>
    refine ⟨?_, ?_, ?_, ?_, ?_, ?_⟩ <;> exact encodes3_of_row fun w hw => by rw [decodeArith, hw]; rfl
  case meanings =>
    simp only [exec_andcc, exec_orcc, exec_xorcc, exec_andncc, exec_orncc, exec_xnorcc]
    exact ⟨writeLogicalCc_spec .., writeLogicalCc_spec .., writeLogicalCc_spec .., writeLogicalCc_spec ..,
      writeLogicalCc_spec .., writeLogicalCc_spec ..⟩

/-- Ten zero bits below imm22 multiply it by 1024. -/
theorem imm22_append_zero (imm22 : BitVec 22) : imm22 ++ 0#10 = BitVec.ofNat 32 (imm22.toNat * 1024) := by
  apply BitVec.eq_of_toNat_eq
  have himm := imm22.isLt
  rw [BitVec.toNat_append, BitVec.toNat_ofNat, BitVec.toNat_ofNat, Nat.or_zero, Nat.shiftLeft_eq,
    Nat.mod_eq_of_lt (by omega)]

/-- Settles O22: a `sethi` with a field that is not zero decodes by `decode_sethi`, and the write of `sethi 0, %r0` is
discarded. -/
theorem sethiAndNopRules : Obligations.SethiAndNopRules := by
  refine ⟨fun cfg rd imm22 h => ?_, fun cfg => ?_, fun s rd imm22 => ⟨?_, ⟨_, rfl, complete_onlyMoves ..⟩, rfl⟩⟩
  · exact (decode_sethi cfg rd imm22).trans (by rw [if_neg h])
  · exact decode_sethi cfg 0 0
  · rw [exec_sethi, imm22_append_zero]
    exact writeResult_spec ..

end Sys2Proof.Machine
end

section
/-! Loads and stores (42_load_store.md sections 2 to 4, 20_memory.md sections 2 and 4): each instruction is one data access
whose effect is the state the model answers. -/

namespace Sys2Proof.Machine

/-! ## Decoding a row of the op = 11 map -/

/-- Where the op = 11 map has a row with rd, rs1 and operand 2, every word of the row decodes to its fields
(30_encoding.md rules R93 and R107). -/
theorem encodes3_of_memoryRow {cfg : Config} {op3 : BitVec 6} {k : RegIdx → RegIdx → Operand2 → Instr}
    (hrow : ∀ w, op3Field w = op3 → decodeMemory cfg w = withOperand2 cfg w true (k (rdField w) (rs1Field w))) :
    Encodes3 cfg 3 op3 k := fun rd rs1 =>
  ⟨fun rs2 => decode_encodeMemory_of_row hrow rd rs1 (.reg rs2),
    fun simm13 => decode_encodeMemory_of_row hrow rd rs1 (.imm simm13)⟩

/-! ## What each instruction does -/

section

variable (rd rs1 : RegIdx) (op2 : Operand2) (s : State)

theorem exec_ldsb : exec (.ldsb rd rs1 op2) s =
    loadValue 1 (s.address rs1 op2) rd ((s.readByte (s.address rs1 op2)).signExtend 32) s := rfl

theorem exec_ldub : exec (.ldub rd rs1 op2) s =
    loadValue 1 (s.address rs1 op2) rd ((s.readByte (s.address rs1 op2)).setWidth 32) s := rfl

theorem exec_ldsh : exec (.ldsh rd rs1 op2) s =
    loadValue 2 (s.address rs1 op2) rd ((s.readHalf (s.address rs1 op2)).signExtend 32) s := rfl

theorem exec_lduh : exec (.lduh rd rs1 op2) s =
    loadValue 2 (s.address rs1 op2) rd ((s.readHalf (s.address rs1 op2)).setWidth 32) s := rfl

theorem exec_ld : exec (.ld rd rs1 op2) s =
    loadValue 4 (s.address rs1 op2) rd (s.readWord (s.address rs1 op2)) s := rfl

theorem exec_ldd : exec (.ldd rd rs1 op2) s =
    evenPair rd s (withAccess 8 (s.address rs1 op2) s
      ((s.landDma.writeReg rd (s.readWord (s.address rs1 op2))).writeReg (rd + 1)
        (s.landDma.readWord (s.address rs1 op2 + 4))).advance) := rfl

theorem exec_stb : exec (.stb rd rs1 op2) s =
    withAccess 1 (s.address rs1 op2) s
      (s.storeByte (s.address rs1 op2) ((s.readReg rd).extractLsb' 0 8)).advance := rfl

theorem exec_sth : exec (.sth rd rs1 op2) s =
    withAccess 2 (s.address rs1 op2) s
      (s.storeHalf (s.address rs1 op2) ((s.readReg rd).extractLsb' 0 16)).advance := rfl

theorem exec_st : exec (.st rd rs1 op2) s =
    withAccess 4 (s.address rs1 op2) s (s.storeWord (s.address rs1 op2) (s.readReg rd)).advance := rfl

theorem exec_std : exec (.std rd rs1 op2) s =
    evenPair rd s (withAccess 8 (s.address rs1 op2) s
      (s.storeDouble (s.address rs1 op2) (s.readReg rd) (s.readReg (rd + 1))).advance) := rfl

theorem exec_ldstub : exec (.ldstub rd rs1 op2) s =
    withAccess 1 (s.address rs1 op2) s
      ((s.storeByte (s.address rs1 op2) 0xFF).writeReg rd ((s.readByte (s.address rs1 op2)).setWidth 32)).advance := rfl

theorem exec_swap : exec (.swap rd rs1 op2) s =
    withAccess 4 (s.address rs1 op2) s
      ((s.storeWord (s.address rs1 op2) (s.readReg rd)).writeReg rd (s.readWord (s.address rs1 op2))).advance := rfl

end

/-! ## Loads -/

/-- Settles O23: each word is in a row of the op = 11 map, and each meaning is `loadValue` of its extended bytes. -/
theorem loadRules : Obligations.LoadRules := by
  refine ⟨fun cfg => ?encodings, fun s rd rs1 op2 => ?meanings⟩
  case encodings =>
    refine ⟨?_, ?_, ?_, ?_, ?_⟩ <;> exact encodes3_of_memoryRow fun w hw => by rw [decodeMemory, hw]; rfl
  case meanings =>
    rw [exec_ldsb, exec_ldub, exec_ldsh, exec_lduh, exec_ld]
    exact ⟨loadValue_spec .., loadValue_spec .., loadValue_spec .., loadValue_spec .., loadValue_spec ..⟩

/-- An even register number is not the one after it, which is not r0. -/
theorem add_one_ne_of_even {rd : RegIdx} (h : rd.toNat % 2 = 0) : rd + 1 ≠ rd ∧ rd + 1 ≠ 0 := by
  constructor <;> bv_omega

/-- With no DMA under way landing it changes nothing. -/
theorem landDma_of_idle {s : State} (h : s.dmaPending = []) : s.landDma = s := by
  cases s
  simp only at h
  subst h
  rfl

/-- Settles O24: the state answered is the one with the DMA writes landed, where the second word is read. -/
theorem loadDoubleRule : Obligations.LoadDoubleRule := by
  refine ⟨fun cfg => encodes3_of_memoryRow fun w hw => by rw [decodeMemory, hw]; rfl,
    fun s rd rs1 op2 => ?_⟩
  intro ea
  rw [exec_ldd]
  refine ⟨fun hodd => evenPair_odd hodd .., fun heven => ?_⟩
  rw [evenPair_even heven]
  obtain ⟨hne, hne0⟩ := add_one_ne_of_even heven
  have hfirst : ∀ v u : Word, ((s.landDma.writeReg rd v).writeReg (rd + 1) u).readReg rd = if rd = 0 then 0 else v :=
    fun v u => by rw [readReg_writeReg, if_neg hne, readReg_writeReg, if_pos rfl]
  refine withAccess_accesses 8 ea s _ ⟨hfirst _ _, RegIs.of_write rfl rfl, fun a => readByte_landDma s a, rfl, rfl, ?_,
    RegsKept.of_write_write rfl rfl, rfl, ⟨rfl, rfl, rfl⟩, ⟨rfl, rfl, rfl, rfl⟩, ⟨rfl, rfl, rfl, rfl⟩⟩
  intro hidle
  have hmem : s.landDma.mem = s.mem := congrArg State.mem (landDma_of_idle hidle)
  exact MemKept.of_eq hmem rfl hidle.symm

/-! ## Stores -/

/-- A store of bytes alone, then `advance`. -/
theorem stores_of_keptOutside {s : State} {ea : Word} {n : Nat} {u : State} (hu : MemoryChanged s u)
    (hm : MemKeptOutside s u ea n) : Stores s u.advance ea n [] := by
  obtain ⟨_, _, _, rfl⟩ := hu
  exact stores_advance hm (RegsKept.of_eq rfl rfl _) rfl ⟨rfl, rfl, rfl⟩ ⟨rfl, rfl, rfl, rfl⟩ rfl rfl

/-- What a store leaves unchanged, with or without DMA writes landing in it. -/
theorem MemoryChanged.frame {s u : State} (hu : MemoryChanged s u) :
    RegsKept s u.advance [] ∧ u.advance.psr = s.psr ∧ SpecialsKept s u.advance ∧ HiddenKept s u.advance ∧
      Advanced s u.advance := by
  obtain ⟨_, _, _, rfl⟩ := hu
  exact ⟨RegsKept.of_eq rfl rfl _, rfl, ⟨rfl, rfl, rfl⟩, ⟨rfl, rfl, rfl, rfl⟩, ⟨rfl, rfl, rfl, rfl⟩⟩

/-- A store of bytes and a write of x[rd], then `advance`. -/
theorem stores_of_keptOutside_write {s : State} {ea : Word} {n : Nat} {u : State} (rd : RegIdx) (v : Word)
    (hu : MemoryChanged s u) (hm : MemKeptOutside s u ea n) :
    Stores s (u.writeReg rd v).advance ea n [s.phys rd] ∧ RegIs (u.writeReg rd v).advance rd v := by
  obtain ⟨_, _, _, rfl⟩ := hu
  exact ⟨stores_advance ⟨hm.bytes, hm.storedTo, hm.dmaPending⟩ (RegsKept.of_write rfl rfl) rfl ⟨rfl, rfl, rfl⟩
    ⟨rfl, rfl, rfl, rfl⟩ rfl rfl, RegIs.of_write rfl rfl⟩

/-- The bytes of a word, read where it was stored. -/
theorem readByte_storeWord_at (s : State) (a v : Word) :
    (s.storeWord a v).readByte a = v.extractLsb' 24 8 ∧ (s.storeWord a v).readByte (a + 1) = v.extractLsb' 16 8 ∧
      (s.storeWord a v).readByte (a + 2) = v.extractLsb' 8 8 ∧ (s.storeWord a v).readByte (a + 3) = v.extractLsb' 0 8 := by
  obtain ⟨h1, h2, h3, h4, h5, h6⟩ := add_one_ne a
  simp only [readByte_storeWord, h1, h2, h3, h4, h5, h6, if_true, if_false, and_self]

/-- The bytes of a halfword, read where it was stored. -/
theorem readByte_storeHalf_at (s : State) (a : Word) (v : BitVec 16) :
    (s.storeHalf a v).readByte a = v.extractLsb' 8 8 ∧ (s.storeHalf a v).readByte (a + 1) = v.extractLsb' 0 8 := by
  obtain ⟨h1, -⟩ := add_one_ne a
  simp only [readByte_storeHalf, h1, if_true, if_false, and_self]

/-- A byte of the low halfword of a word is a byte of the word. -/
theorem extract_low_half (v : Word) :
    (v.extractLsb' 0 16).extractLsb' 8 8 = v.extractLsb' 8 8 ∧ (v.extractLsb' 0 16).extractLsb' 0 8 = v.extractLsb' 0 8 := by
  constructor <;> rw [BitVec.extractLsb'_extractLsb'_of_le (by decide)]

/-- Settles O25: each state answered is a store's, kept outside its bytes. -/
theorem storeRules : Obligations.StoreRules := by
  refine ⟨fun cfg => ?encodings, fun s rd rs1 op2 => ?meanings⟩
  case encodings =>
    refine ⟨?_, ?_, ?_⟩ <;> exact encodes3_of_memoryRow fun w hw => by rw [decodeMemory, hw]; rfl
  case meanings =>
    intro ea v
    rw [exec_stb, exec_sth, exec_st]
    obtain ⟨hhigh, hlow⟩ := extract_low_half v
    obtain ⟨hfirst, hsecond⟩ := readByte_storeHalf_at s ea (v.extractLsb' 0 16)
    refine ⟨withAccess_accesses 1 ea s _ ⟨stores_of_keptOutside (storeByte_memoryChanged ..) (storeByte_keptOutside ..), ?_⟩,
      withAccess_accesses 2 ea s _ ⟨stores_of_keptOutside (storeHalf_memoryChanged ..) (storeHalf_keptOutside ..),
        hfirst.trans hhigh, hsecond.trans hlow⟩,
      withAccess_accesses 4 ea s _ ⟨stores_of_keptOutside (storeWord_memoryChanged ..) (storeWord_keptOutside ..),
        readByte_storeWord_at s ea v⟩⟩
    exact (readByte_storeByte ..).trans (if_pos rfl)

/-- Settles O26: the state answered is `storeDouble`'s. -/
theorem storeDoubleRule : Obligations.StoreDoubleRule := by
  refine ⟨fun cfg => encodes3_of_memoryRow fun w hw => by rw [decodeMemory, hw]; rfl,
    fun s rd rs1 op2 => ?_⟩
  intro ea v dma
  rw [exec_std, show s.address rs1 op2 = ea from rfl, show s.readReg rd = v from rfl]
  refine ⟨fun hodd => evenPair_odd hodd .., fun heven => ?_⟩
  rw [evenPair_even heven]
  have hfirst := readByte_storeDouble_first s ea v (s.readReg (rd + 1))
  have hsecond := readWord_storeDouble s ea v (s.readReg (rd + 1))
  have houtside := fun a => readByte_storeDouble_outside (ea := ea) (a := a) s v (s.readReg (rd + 1))
  have hlanded := storeDouble_dmaPending s ea v (s.readReg (rd + 1))
  have hrecord := storeDouble_recordsStore s ea v (s.readReg (rd + 1))
  have hidle := storeDouble_keptOutside s ea v (s.readReg (rd + 1))
  have hchanged := storeDouble_memoryChanged s ea v (s.readReg (rd + 1))
  generalize s.storeDouble ea v (s.readReg (rd + 1)) = u at *
  exact withAccess_accesses 8 ea s _ ⟨hfirst, hsecond, houtside, hlanded, hrecord,
    fun h => ⟨stores_of_keptOutside hchanged (hidle h).1, (hidle h).2⟩, hchanged.frame⟩

/-- Settles O27: a store and a write of x[rd] in one state. -/
theorem ldstubAndSwapRules : Obligations.LdstubAndSwapRules := by
  refine ⟨fun cfg => ?encodings, fun s rd rs1 op2 => ?meanings⟩
  case encodings =>
    constructor <;> exact encodes3_of_memoryRow fun w hw => by rw [decodeMemory, hw]; rfl
  case meanings =>
    intro ea
    rw [exec_ldstub, exec_swap]
    obtain ⟨hbyte, hold⟩ := stores_of_keptOutside_write rd ((s.readByte ea).setWidth 32) (storeByte_memoryChanged ..)
      (storeByte_keptOutside s ea 0xFF)
    obtain ⟨hword, holdWord⟩ := stores_of_keptOutside_write rd (s.readWord ea) (storeWord_memoryChanged ..)
      (storeWord_keptOutside s ea (s.readReg rd))
    have hset : (s.storeByte ea 0xFF).readByte ea = 0xFF := by rw [readByte_storeByte, if_pos rfl]
    exact ⟨withAccess_accesses 1 ea s _ ⟨hbyte, hset, hold⟩,
      withAccess_accesses 4 ea s _ ⟨hword, readWord_storeWord s ea (s.readReg rd), holdWord⟩⟩

/-! ## Byte order -/

/-- Settles O28: the bytes are those of `readByte_storeWord`, and a halfword read puts two of them together. -/
theorem bigEndianMemory : Obligations.BigEndianMemory := by
  intro s a v t
  obtain ⟨h0, h1, h2, h3⟩ := readByte_storeWord_at s a v
  have happend : ∀ n, v.extractLsb' (n + 8) 8 ++ v.extractLsb' n 8 = v.extractLsb' n 16 := fun n =>
    BitVec.extractLsb'_append_extractLsb'_eq_extractLsb' rfl
  have h3' : t.readByte (a + 2 + 1) = v.extractLsb' 0 8 := by rw [show a + 2 + 1 = a + 3 by bv_omega]; exact h3
  refine ⟨readWord_storeWord s a v, ?_, ?_, h0, h1, h2, h3, (storeWord_keptOutside s a v).bytes, rfl⟩
  · rw [State.readHalf, h0, h1]
    exact happend 16
  · rw [State.readHalf, h2, h3']
    exact happend 0

end Sys2Proof.Machine
end

section
/-! Delayed control-transfer couples (43_branch.md rule R240): what refuses one, and which instructions set the history it
asks for. -/

namespace Sys2Proof.Machine

/-- The check for a couple comes first and looks at nothing else (43_branch.md rule R240). -/
theorem hazard_couple_iff (i : Instr) (s : State) :
    hazard i s = some .dctiCouple ↔ isDelayedTransfer i = true ∧ s.dctiPrev = .cond := by
  simp only [hazard, uses_dcti, ← Bool.and_eq_true_iff, ← beq_iff_eq (a := s.dctiPrev)]
  split
  case isTrue h => exact ⟨fun _ => h, fun _ => rfl⟩
  case isFalse h =>
    refine ⟨fun hr => ?_, fun hd => absurd hd h⟩
    split_ifs at hr <;> cases hr

theorem runInstr_of_hazard {s : State} {i : Instr} {r : Refusal} (h : hazard i s = some r) :
    runInstr s i = .refused r := by rw [runInstr, h]

theorem runInstr_of_no_hazard {s : State} {i : Instr} (h : hazard i s = none) : runInstr s i = exec i s := by
  rw [runInstr, h]

/-- No meaning refuses a couple: only the check before it does. -/
theorem runInstr_couple_iff (s : State) (i : Instr) :
    runInstr s i = .refused .dctiCouple ↔ isDelayedTransfer i = true ∧ s.dctiPrev = .cond := by
  rw [← hazard_couple_iff]
  refine ⟨fun h => ?_, runInstr_of_hazard⟩
  rw [runInstr] at h
  split at h
  case h_1 r hr => rw [hr, Host.Outcome.refused.inj h]
  case h_2 => exact nomatch exec_refused h

theorem isDelayedTransfer_trapOf (k : Cond) (rs1 : RegIdx) (num : TrapNumber) :
    isDelayedTransfer (trapOf k rs1 num) = false := by cases k <;> rfl

/-- The history after a branch is `cond` where its delay instruction executes and it is not BA. -/
theorem bicc_dctiPrev_cond_iff {k : Cond} {a : Bool} {disp22 : BitVec 22} {s t : State}
    (h : bicc k a disp22 s = .next t) : t.dctiPrev = .cond ↔ k ≠ .a ∧ (condTrue k s.psr.icc = true ∨ a = false) := by
  rcases bicc_next h with ⟨rfl, rfl, rfl⟩ | ⟨rfl, hcond, hba⟩ | ⟨rfl, hcond, rfl⟩ | ⟨rfl, hcond, rfl⟩
  · exact ⟨fun hd => (nomatch hd), fun hk => absurd rfl hk.1⟩
  · rw [complete_dctiPrev]
    split
    case isTrue hk => exact ⟨fun hd => (nomatch hd), fun hk' => absurd hk hk'.1⟩
    case isFalse hk => exact ⟨fun _ => ⟨hk, .inl hcond⟩, fun _ => rfl⟩
  · exact ⟨fun hd => (nomatch hd), fun hk => by simp [hcond] at hk⟩
  · exact ⟨fun _ => ⟨fun hk => by simp [hk, condTrue] at hcond, .inr rfl⟩, fun _ => rfl⟩

/-- Only BA with a = 0 leaves `uncond`, of the branches. -/
theorem bicc_dctiPrev_uncond {k : Cond} {a : Bool} {disp22 : BitVec 22} {s t : State}
    (h : bicc k a disp22 s = .next t) (hd : t.dctiPrev = .uncond) : k = .a ∧ a = false := by
  rcases bicc_next h with ⟨rfl, rfl, rfl⟩ | ⟨rfl, hcond, hba⟩ | ⟨rfl, hcond, rfl⟩ | ⟨rfl, hcond, rfl⟩
  · exact nomatch hd
  · rw [complete_dctiPrev] at hd
    split at hd
    case isTrue hk => exact ⟨hk, by simpa [hk] using hba⟩
    case isFalse hk => exact nomatch hd
  · exact nomatch hd
  · exact nomatch hd

/-- No instruction but a branch leaves the history `cond`. -/
theorem exec_dctiPrev_ne_cond {i : Instr} {s t : State} (h : exec i s = .next t) (ht : t.errorMode = false)
    (hi : ¬∃ k a disp22, i = branchOf k a disp22) : t.dctiPrev ≠ .cond := by
  rcases exec_next h with ⟨trap, -, rfl⟩ | ⟨-, rfl⟩ | hc
  · exact fun hd => nomatch hd
  · exact nomatch ht
  · cases hc with
    | branches k a disp22 _ => exact absurd ⟨k, a, disp22, rfl⟩ hi
    | saves rd rs1 op2 hw => rw [moveWindow_next hw]; exact fun hd => nomatch hd
    | restores rd rs1 op2 hw => rw [moveWindow_next hw]; exact fun hd => nomatch hd
    | _ => exact fun hd => nomatch hd

/-- Only a delayed control transfer leaves the history `uncond`. -/
theorem isDelayedTransfer_of_uncond {i : Instr} {s t : State} (h : exec i s = .next t) (ht : t.errorMode = false)
    (hd : t.dctiPrev = .uncond) : isDelayedTransfer i = true := by
  rcases exec_next h with ⟨trap, -, rfl⟩ | ⟨-, rfl⟩ | hc
  · exact nomatch hd
  · exact nomatch ht
  · by_contra hno
    rw [hc.dctiPrev_eq (by simpa using hno)] at hd
    exact nomatch hd

theorem branchOf_injective {k k' : Cond} {a a' : Bool} {disp22 disp22' : BitVec 22}
    (h : branchOf k a disp22 = branchOf k' a' disp22') : k = k' ∧ a = a' := by
  have hcode : encodeBicc (condCode k) a disp22 = encodeBicc (condCode k') a' disp22' := by
    rw [← encode_branchOf .specDefault, ← encode_branchOf .specDefault, h]
  have hcond := congrArg condField hcode
  have ha := congrArg aField hcode
  simp only [encodeBicc, condField_format2, aField_format2, extract_low (BitVec.ofBool a) (condCode k),
    extract_low (BitVec.ofBool a') (condCode k'), extract_high (BitVec.ofBool a) (condCode k),
    extract_high (BitVec.ofBool a') (condCode k')] at hcond ha
  exact ⟨condCode_injective hcond, (show ∀ x y : Bool, BitVec.ofBool x = BitVec.ofBool y → x = y by decide) a a' ha⟩

/-- Settles O59: the check for a couple asks for a delayed control transfer after a conditional branch, and the history is
set by what completed last. -/
theorem dctiCoupleRefusals : Obligations.DctiCoupleRefusals := by
  refine ⟨fun s k a disp22 disp30 rd rs1 op2 hs j hj => ?_, fun s i => ?_, fun s k rd rs1 op2 num j hj => ?_,
    fun i s t hs he ht => ?_⟩
  · rw [runInstr_couple_iff]
    simp only [List.mem_cons, List.not_mem_nil, or_false] at hj
    rcases hj with rfl | rfl | rfl | rfl
    · exact ⟨isDelayedTransfer_branchOf .., hs⟩
    · exact ⟨rfl, hs⟩
    · exact ⟨rfl, hs⟩
    · exact ⟨rfl, hs⟩
  · rw [runInstr_couple_iff, isDelayedTransfer_iff, and_comm]
  · rw [Ne, runInstr_couple_iff]
    simp only [List.mem_cons, List.not_mem_nil, or_false] at hj
    rcases hj with rfl | rfl | rfl
    · rw [isDelayedTransfer_trapOf]
      exact fun h => nomatch h.1
    · exact fun h => nomatch h.1
    · exact fun h => nomatch h.1
  · by_cases hi : ∃ k a disp22, i = branchOf k a disp22
    · obtain ⟨k, a, disp22, rfl⟩ := hi
      rw [exec_branchOf] at he
      rw [bicc_dctiPrev_cond_iff he]
      refine ⟨⟨fun h => ⟨k, a, disp22, rfl, h⟩, ?_⟩, fun hd => ?_⟩
      · rintro ⟨k', a', disp22', heq, h⟩
        obtain ⟨rfl, rfl⟩ := branchOf_injective heq
        exact h
      · obtain ⟨rfl, rfl⟩ := bicc_dctiPrev_uncond he hd
        exact .inl ⟨disp22, rfl⟩
    · refine ⟨⟨fun hd => absurd hd (exec_dctiPrev_ne_cond he ht hi), ?_⟩, fun hd => ?_⟩
      · rintro ⟨k, a, disp22, rfl, -⟩
        exact absurd ⟨k, a, disp22, rfl⟩ hi
      · rcases (isDelayedTransfer_iff i).1 (isDelayedTransfer_of_uncond he ht hd) with hb | h
        · exact absurd hb hi
        · exact .inr h

end Sys2Proof.Machine
end

section
/-! Control transfer (43_branch.md, 44_subroutine.md, 45_trap_instructions.md): branches, CALL, JMPL, SAVE, RESTORE, Ticc and
RETT; what a trap entry and a return do together; and the branch at the end of a run. -/

namespace Sys2Proof.Machine

/-! ## Targets -/

/-- PC plus four times a signed displacement, modulo 2^32 (30_encoding.md rules R99 and R100). -/
theorem target_eq_ofInt {n : Nat} (pc : Word) (disp : BitVec n) :
    pc + 4 * disp.signExtend 32 = BitVec.ofInt 32 (pc.toNat + 4 * disp.toInt) := by
  rw [BitVec.ofInt_add, BitVec.ofInt_mul, BitVec.ofInt_natCast, BitVec.ofNat_toNat, BitVec.setWidth_eq]
  rfl

theorem branchTarget_eq (s : State) (disp22 : BitVec 22) :
    s.branchTarget disp22 = BitVec.ofInt 32 (s.pc.toNat + 4 * disp22.toInt) := target_eq_ofInt s.pc disp22

theorem callTarget_eq (s : State) (disp30 : BitVec 30) :
    s.callTarget disp30 = BitVec.ofInt 32 (s.pc.toNat + 4 * disp30.toInt) := target_eq_ofInt s.pc disp30

/-! ## Branches -/

/-- Settles O29: the sixteen words are `encodeBicc` of their condition, the four cases are those of `bicc`. -/
theorem branchRules : Obligations.BranchRules := by
  refine ⟨fun cfg k a disp22 => ?_, fun s k a disp22 => ?_⟩
  · exact (decode_encodeBicc cfg (condCode k) a disp22).trans (by rw [biccOfCond_code])
  · rw [exec_branchOf, ← branchTarget_eq]
    exact bicc_spec k a disp22 s

/-! ## CALL, JMPL, SAVE and RESTORE -/

section

variable (disp30 : BitVec 30) (rd rs1 : RegIdx) (op2 : Operand2) (s : State)

theorem exec_call : exec (.call disp30) s =
    .next ((s.writeReg 15 s.pc).complete s.npc (s.callTarget disp30) .uncond) := rfl

theorem exec_jmpl : exec (.jmpl rd rs1 op2) s =
    if aligned 4 (s.address rs1 op2) = false then raise .memAddressNotAligned s
    else .next ((s.writeReg rd s.pc).complete s.npc (s.address rs1 op2) .uncond) := rfl

theorem exec_save : exec (.save rd rs1 op2) s =
    if s.windowInvalid (prevWindow s.cfg.nwindows s.psr.cwp) then raise .windowOverflow s
    else moveWindow (prevWindow s.cfg.nwindows s.psr.cwp) rd (s.address rs1 op2) s := rfl

theorem exec_restore : exec (.restore rd rs1 op2) s =
    if s.windowInvalid (nextWindow s.cfg.nwindows s.psr.cwp) then raise .windowUnderflow s
    else moveWindow (nextWindow s.cfg.nwindows s.psr.cwp) rd (s.address rs1 op2) s := rfl

end

/-- JMPL to a target that is a multiple of 4. -/
theorem exec_jmpl_aligned {rs1 : RegIdx} {op2 : Operand2} {s : State} (h : aligned 4 (s.address rs1 op2) = true)
    (rd : RegIdx) : exec (.jmpl rd rs1 op2) s =
      .next ((s.writeReg rd s.pc).complete s.npc (s.address rs1 op2) .uncond) := by
  rw [exec_jmpl, h, if_neg (by decide)]

/-- Settles O31: `links_complete` of the two targets, and both are delayed control transfers. -/
theorem callAndJumpRules : Obligations.CallAndJumpRules := by
  refine ⟨decode_encodeCall, fun cfg => encodes3_of_row fun w hw => by rw [decodeArith, hw]; rfl,
    fun s disp30 rd rs1 op2 => ⟨⟨_, exec_call disp30 s, ?_⟩, fun h => ?_, fun h => ?_, fun h => ?_⟩⟩
  · rw [callTarget_eq]
    exact links_complete ..
  · rw [exec_jmpl, (not_aligned_iff 4 (s.address rs1 op2)).2 h, if_pos rfl]
  · exact ⟨_, exec_jmpl_aligned ((aligned_iff 4 (s.address rs1 op2)).2 h) rd, links_complete ..⟩
  · exact ⟨(runInstr_couple_iff ..).2 ⟨rfl, h⟩, (runInstr_couple_iff ..).2 ⟨rfl, h⟩⟩

theorem eq_prevWindow {n : NWindows} {w down : BitVec 5} (h : down.toNat = (w.toNat + n.toNat - 1) % n.toNat) :
    down = prevWindow n w := BitVec.eq_of_toNat_eq (h.trans (prevWindow_toNat n w).symm)

theorem eq_nextWindow {n : NWindows} {w up : BitVec 5} (h : up.toNat = (w.toNat + 1) % n.toNat) :
    up = nextWindow n w := BitVec.eq_of_toNat_eq (h.trans (nextWindow_toNat n w).symm)

/-- Settles O32: the windows below and above are `prevWindow` and `nextWindow`, whose bit of WIM decides. -/
theorem windowMoveRules : Obligations.WindowMoveRules := by
  refine ⟨fun cfg => ?encodings, fun s rd rs1 op2 down up hdown hup => ?meanings⟩
  case encodings =>
    constructor <;> exact encodes3_of_row fun w hw => by rw [decodeArith, hw]; rfl
  case meanings =>
    obtain rfl := eq_prevWindow hdown
    obtain rfl := eq_nextWindow hup
    rw [exec_save, exec_restore, windowInvalid_eq s _ (prevWindow_lt ..), windowInvalid_eq s _ (nextWindow_lt ..)]
    refine ⟨fun h => if_pos h, fun h => ?_, fun h => if_pos h, fun h => ?_⟩
    · rw [if_neg (by simp [h])]
      exact moveWindow_spec ..
    · rw [if_neg (by simp [h])]
      exact moveWindow_spec ..

/-! ## Ticc -/

/-- The trap number is the low seven bits of the sum. -/
theorem extractLsb'_zero_seven (x : Word) : x.extractLsb' 0 7 = BitVec.ofNat 7 x.toNat := by
  apply BitVec.eq_of_toNat_eq
  rw [BitVec.extractLsb'_toNat, Nat.shiftRight_zero, BitVec.toNat_ofNat]

/-- The trap type of a trap instruction is 128 and the trap number (60_exceptions.md rule R322). -/
theorem tt_trapInstruction_toNat (n : BitVec 7) : (Trap.trapInstruction n).tt.toNat = 0x80 + n.toNat := by
  rw [Trap.tt, BitVec.toNat_append, ← Nat.shiftLeft_add_eq_or_of_lt n.isLt]
  rfl

theorem tt_trapInstruction (n : Nat) :
    (Trap.trapInstruction (BitVec.ofNat 7 n)).tt = BitVec.ofNat 8 (128 + n % 128) := by
  apply BitVec.eq_of_toNat_eq
  rw [tt_trapInstruction_toNat, BitVec.toNat_ofNat, BitVec.toNat_ofNat]
  omega

/-- Settles O33: the sixteen words are `encodeTicc` of their condition, and `ticc` raises its trap or advances. -/
theorem trapInstructionRules : Obligations.TrapInstructionRules := by
  refine ⟨fun cfg k rs1 rs2 imm7 => ⟨?_, ?_⟩, fun s k rs1 num => ?_⟩
  · exact (decode_encodeTicc cfg (condCode k) rs1 (.reg rs2)).trans (by rw [ticcOfCond_code])
  · exact (decode_encodeTicc cfg (condCode k) rs1 (.imm imm7)).trans (by rw [ticcOfCond_code])
  · intro sum
    have hnumber : s.trapNumber rs1 num = BitVec.ofNat 7 sum.toNat := by
      cases num with
      | reg rs2 => exact extractLsb'_zero_seven _
      | imm imm7 =>
        have himm : imm7.setWidth 32 = BitVec.ofNat 32 imm7.toNat := (BitVec.ofNat_toNat 32 imm7).symm
        rw [State.trapNumber, himm, extractLsb'_zero_seven]
    obtain ⟨htrue, hfalse⟩ := ticc_spec k rs1 num s
    rw [hnumber] at htrue
    rw [exec_trapOf]
    refine ⟨fun h => ⟨_, hfalse h, complete_onlyMoves ..⟩, fun h => ⟨htrue h, fun htaken => ?_⟩⟩
    rw [htrue h, htaken.raise, ← tt_trapInstruction]
    exact ⟨_, rfl, trapEntry_entered ..⟩

/-! ## RETT -/

theorem exec_rett (rs1 : RegIdx) (op2 : Operand2) (s : State) : exec (.rett rs1 op2) s =
    if s.psr.et then if s.psr.s then raise .illegalInstruction s else raise .privilegedInstruction s
    else if s.psr.s = false then .next s.enterErrorMode
    else if s.windowInvalid (nextWindow s.cfg.nwindows s.psr.cwp) then .next s.enterErrorMode
    else if aligned 4 (s.address rs1 op2) = false then .next s.enterErrorMode
    else .next (s.returnFromTrap (s.address rs1 op2)) := rfl

/-- RETT in supervisor mode with ET = 0, into a valid window and to a target that is a multiple of 4. -/
theorem exec_rett_returns {rs1 : RegIdx} {op2 : Operand2} {s : State} (het : s.psr.et = false) (hs : s.psr.s = true)
    (hw : s.windowInvalid (nextWindow s.cfg.nwindows s.psr.cwp) = false) (ha : aligned 4 (s.address rs1 op2) = true) :
    exec (.rett rs1 op2) s = .next (s.returnFromTrap (s.address rs1 op2)) := by
  simp [exec_rett, het, hs, hw, ha]

/-- Where RETT with ET = 0 fails a check it enters error mode. -/
theorem exec_rett_fails {rs1 : RegIdx} {op2 : Operand2} {s : State} (het : s.psr.et = false)
    (h : s.psr.s = false ∨ s.windowInvalid (nextWindow s.cfg.nwindows s.psr.cwp) = true ∨
      aligned 4 (s.address rs1 op2) = false) : exec (.rett rs1 op2) s = .next s.enterErrorMode := by
  rw [exec_rett, het, if_neg Bool.false_ne_true]
  rcases h with h | h | h
  · rw [if_pos h]
  · rw [if_pos h, ite_self]
  · rw [if_pos h, ite_self, ite_self]

/-- Settles O34: the branches of the definition, with WIM's bit for the window above. -/
theorem returnFromTrapRule : Obligations.ReturnFromTrapRule := by
  refine ⟨fun cfg => ?encodings, fun s rs1 op2 up hup => ?meanings⟩
  case encodings =>
    have hdecode := fun rs1 o => decode_encodeArith_of_rowNoRd (cfg := cfg) (op3 := 0b111001) (k := .rett)
      (fun w hw => by rw [decodeArith, hw]; rfl) rs1 o
    exact fun rs1 => ⟨fun rs2 => hdecode rs1 (.reg rs2), fun simm13 => hdecode rs1 (.imm simm13)⟩
  case meanings =>
    obtain rfl := eq_nextWindow hup
    intro target
    rw [← windowInvalid_eq s _ (nextWindow_lt ..), Ne, ← aligned_iff, Bool.not_eq_true]
    refine ⟨fun het hs => ?_, fun het hs => ?_, fun het h => ?_, fun het hs hw ha => ?_,
      fun h => (runInstr_couple_iff ..).2 ⟨rfl, h⟩⟩
    · rw [exec_rett, if_pos het, hs, if_neg Bool.false_ne_true]
    · rw [exec_rett, if_pos het, if_pos hs]
    · exact ⟨_, exec_rett_fails het h, enterErrorMode_inErrorMode s⟩
    · exact ⟨_, exec_rett_returns het hs hw ha, rfl, ⟨rfl, rfl, rfl, rfl⟩, RegsKept.of_eq rfl rfl _, ⟨rfl, rfl, rfl⟩,
        MemKept.of_eq rfl rfl rfl, ⟨rfl, rfl, rfl, rfl⟩⟩

/-! ## A trap and the return from it -/

/-- The handler's JMPL and RETT, whatever address each computes: the window, S and ET come back, and control goes to the
two addresses. -/
theorem return_after_entry {s h : State} {tt : BitVec 8} (het : s.psr.et = true) (hinv : s.Inv)
    (hwim : s.wim.getLsbD s.psr.cwp.toNat = false) (hentered : TrapEntered s h tt) {rs1 rs1' : RegIdx}
    {op2 op2' : Operand2} (hjump : aligned 4 (h.address rs1 op2) = true)
    (hreturn : aligned 4 (h.address rs1' op2') = true) :
    ∃ u v, exec (.jmpl 0 rs1 op2) h = .next u ∧ exec (.rett rs1' op2') u = .next v ∧
      v.pc = h.address rs1 op2 ∧ v.npc = h.address rs1' op2' ∧ v.psr = { s.psr with ps := s.psr.s } ∧
      RegsKept s v [physReg s.cfg.nwindows h.psr.cwp 17, physReg s.cfg.nwindows h.psr.cwp 18] ∧
      v.wim = s.wim ∧ v.y = s.y ∧ v.tbr = ⟨s.tbr.tba, tt⟩ ∧ MemKept s v := by
  obtain ⟨htbr, hpsr, -, -, hregs, -, -, -, -, hwimKept, hy, hmem, hhidden⟩ := hentered
  have hup : nextWindow h.cfg.nwindows h.psr.cwp = s.psr.cwp := by
    rw [hhidden.cfg, hpsr, nextWindow_prevWindow hinv.cwpLegal]
  have hvalid : h.windowInvalid s.psr.cwp = false := by
    rw [windowInvalid_eq h _ (by rw [hhidden.cfg]; exact hinv.cwpLegal), hwimKept, hwim]
  refine ⟨_, _, exec_jmpl_aligned hjump 0, exec_rett_returns (congrArg Psr.et hpsr) (congrArg Psr.s hpsr) ?_ hreturn,
    rfl, rfl, ?_, hregs, hwimKept, hy, htbr, ⟨hmem.bytes, hmem.storedTo, hmem.dmaPending⟩⟩
  · exact (congrArg h.windowInvalid hup).trans hvalid
  · show { h.psr with cwp := nextWindow h.cfg.nwindows h.psr.cwp, s := h.psr.ps, et := true } = _
    rw [hup, hpsr, ← het]

/-- Settles O56: r17 and r18 of the handler's window hold PC and nPC, which are multiples of 4. -/
theorem trapThenReturnResumes : Obligations.TrapThenReturnResumes := by
  intro s h tt htaken hinv hwim hentered
  have hfirst : h.address 17 (.reg 0) = s.pc := by
    rw [State.address, State.op2val, readReg_zero, hentered.r17, add_zero]
  have hsecond : h.address 18 (.reg 0) = s.npc := by
    rw [State.address, State.op2val, readReg_zero, hentered.r18, add_zero]
  have hafter : h.address 18 (.imm 4) = s.npc + 4 := by
    rw [State.address, State.op2val, hentered.r18]
    rfl
  constructor
  · rw [← hfirst, ← hsecond]
    exact return_after_entry htaken.et hinv hwim hentered (by rw [hfirst]; exact hinv.pcAligned)
      (by rw [hsecond]; exact hinv.npcAligned)
  · rw [← hafter, ← hsecond]
    exact return_after_entry htaken.et hinv hwim hentered (by rw [hsecond]; exact hinv.npcAligned)
      (by rw [hafter]; exact aligned_add_four hinv.npcAligned)

/-! ## The end of a run -/

/-- A fetch from a populated address the program has not stored to. -/
theorem withFetch_fetched {s : State} (hacc : s.accessible s.pc 4 = true) (hst : s.fetchesStored = false)
    (run : Instr → Result) : withFetch s run = runDecoded (decodeBytes s.cfg s.fetchBytes) s run := by
  rw [withFetch, hacc, hst, if_neg (by decide), if_neg (by decide)]

/-- BA reads nothing a delayed write could leave open. -/
theorem hazard_ba {s : State} (h : s.dctiPrev ≠ .cond) (a : Bool) (disp22 : BitVec 22) :
    hazard (.ba a disp22) s = none := by
  simp [hazard, uses, Uses.plain, psrWindowRefuses, Uses.namesWindowed, h]

/-- A branch to itself. -/
theorem branchTarget_zero (s : State) : s.branchTarget 0 = s.pc := by
  show s.pc + 4 * (0 : Word) = s.pc
  rw [mul_zero, add_zero]

theorem atEnd_of_ba {s : State} {a : Bool} (he : s.errorMode = false) (hacc : s.accessible s.pc 4 = true)
    (hnpc : s.npc = s.pc + 4) (hdec : decodeBytes s.cfg s.fetchBytes = .instr (.ba a 0)) : s.atEnd = true := by
  simp [State.atEnd, he, hacc, hnpc, hdec]

/-- Settles O60: the step is `bicc` of BA to PC itself, which with a = 1 leaves PC, nPC and memory as they were. -/
theorem endOfRunLoops : Obligations.EndOfRunLoops := by
  intro s a he hi hd hacc hst hdcti hnpc hdec
  have hstep : step s = bicc .a a 0 s := by
    rw [step_idle hi hd he, runAtPc, withFetch_fetched hacc hst, hdec]
    exact (runInstr_of_no_hazard (hazard_ba hdcti a 0)).trans (exec_branchOf .a a 0 s)
  refine ⟨atEnd_of_ba he hacc hnpc hdec, fun ha => ?_, fun ha => ?_⟩ <;> subst ha
  case refine_1 =>
    have hbranch : bicc .a true 0 s = .next (s.complete s.pc s.npc .none) := by
      rw [hnpc, ← branchTarget_zero s]
      rfl
    exact ⟨_, hstep.trans hbranch, complete_onlyMoves .., atEnd_of_ba he hacc hnpc hdec⟩
  case refine_2 =>
    have hbranch : bicc .a false 0 s = .next (s.complete s.npc s.pc .uncond) := by
      rw [← branchTarget_zero s]
      rfl
    exact ⟨_, hstep.trans hbranch, complete_onlyMoves ..⟩

end Sys2Proof.Machine
end

section
/-! The delayed-write windows (70_reset_and_hazards.md rule R380): the checks before an instruction are the rows of the
table, and what they refuse. -/

namespace Sys2Proof.Machine

/-! ## The table of uses is the table of rows -/

theorem uses_wim (i : Instr) : (uses i).wim = inWimRow i := by cases i <;> rfl

theorem uses_tbr (i : Instr) : (uses i).tbr = inTbrRow i := by cases i <;> rfl

theorem uses_y (i : Instr) : (uses i).y = inYRow i := by cases i <;> rfl

theorem uses_icc (i : Instr) : (uses i).icc = dependsOnIcc i := by cases i <;> rfl

theorem uses_privileged (i : Instr) : (uses i).privileged = isPrivileged i := by cases i <;> rfl

theorem operand2Regs_any (op2 : Operand2) : (operand2Regs op2).any isWindowed = operand2Windowed op2 := by
  cases op2 with
  | reg rs2 => exact Bool.or_false _
  | imm simm13 => rfl

/-- The register fields of `uses` are those of `namesWindowed`. -/
theorem uses_namesWindowed (i : Instr) : (uses i).namesWindowed = namesWindowed i := by
  show (uses i).regs.any isWindowed = _
  cases i
  case ta | tn | tne | te | tg | tle | tge | tl | tgu | tleu | tcc | tcs | tpos | tneg | tvc | tvs =>
    rename_i rs1 num
    cases num <;> simp [uses, Uses.plain, trapNumberRegs, namesWindowed]
  case sll | srl | sra =>
    rename_i rd rs1 cnt
    cases cnt <;> simp [uses, Uses.plain, shiftCountRegs, namesWindowed, Bool.or_assoc]
  case call => rfl
  all_goals simp [uses, Uses.plain, namesWindowed, operand2Regs_any, Bool.or_assoc]

/-- The row of PSR (70_reset_and_hazards.md rule R380(c)). -/
theorem psrWindowRefuses_uses (i : Instr) (p : Pending) :
    psrWindowRefuses (uses i) p = (p.psr != 0 && inPsrRow p.changed i) := by
  rw [psrWindowRefuses, uses_icc, uses_privileged, uses_namesWindowed]
  congr 1
  cases i
  case rdpsr | wrpsr => simp [uses, inPsrRow]
  case save | restore => simp [uses, Uses.plain, inPsrRow, dependsOnIcc, isPrivileged]
  case rett => simp [uses, Uses.plain, inPsrRow, dependsOnIcc, isPrivileged, Bool.or_assoc]
  all_goals simp only [uses, Uses.plain, inPsrRow, Bool.false_or, Bool.or_false, Bool.and_false]

/-! ## What the checks refuse -/

/-- The checks before an instruction, in terms of the rows. -/
theorem hazard_eq (i : Instr) (s : State) :
    hazard i s =
      if isDelayedTransfer i && s.dctiPrev == .cond then some .dctiCouple
      else if s.pending.psr != 0 && inPsrRow s.pending.changed i then some (.delayedWrite .psr)
      else if s.pending.wim != 0 && inWimRow i then some (.delayedWrite .wim)
      else if s.pending.tbr != 0 && inTbrRow i then some (.delayedWrite .tbr)
      else if s.pending.y != 0 && inYRow i then some (.delayedWrite .y) else none := by
  simp only [hazard, uses_dcti, psrWindowRefuses_uses, uses_wim, uses_tbr, uses_y]

/-- An instruction in the row of a register whose window is open is refused. -/
theorem hazard_of_inOpenRow {i : Instr} {s : State} (h : inOpenRow s.pending i = true) :
    ∃ r, hazard i s = some r := by
  simp only [inOpenRow, Bool.or_eq_true] at h
  rw [hazard_eq]
  split_ifs
  case neg => simp_all
  all_goals exact ⟨_, rfl⟩

theorem runInstr_refused_of_inOpenRow {i : Instr} {s : State} (h : inOpenRow s.pending i = true) :
    ∃ r, runInstr s i = .refused r := by
  obtain ⟨r, hr⟩ := hazard_of_inOpenRow h
  exact ⟨r, runInstr_of_hazard hr⟩

/-- What the checks do outside a couple: they refuse a delayed write, or nothing. -/
theorem hazard_of_no_couple {i : Instr} {s : State} (hd : s.dctiPrev ≠ .cond ∨ isDelayedTransfer i = false) :
    (inOpenRow s.pending i = true → ∃ r, hazard i s = some (.delayedWrite r)) ∧
      (inOpenRow s.pending i = false → hazard i s = none) := by
  have hno : (isDelayedTransfer i && s.dctiPrev == .cond) = false := by
    rw [Bool.and_eq_false_iff, beq_eq_false_iff_ne]
    exact hd.symm
  simp only [hazard_eq, hno, Bool.false_eq_true, if_false, inOpenRow]
  constructor
  · intro h
    split_ifs
    case neg => simp_all
    all_goals exact ⟨_, rfl⟩
  · intro h
    simp only [Bool.or_eq_false_iff] at h
    obtain ⟨⟨⟨hpsr, hwim⟩, htbr⟩, hy⟩ := h
    simp [hpsr, hwim, htbr, hy]

/-! ## Membership in the rows -/

section

variable {p : Pending} {i : Instr}

theorem inOpenRow_of_psr (hp : p.psr ≠ 0) (hi : inPsrRow p.changed i = true) : inOpenRow p i = true := by
  simp [inOpenRow, hp, hi]

theorem inOpenRow_of_wim (hp : p.wim ≠ 0) (hi : inWimRow i = true) : inOpenRow p i = true := by
  simp [inOpenRow, hp, hi]

theorem inOpenRow_of_tbr (hp : p.tbr ≠ 0) (hi : inTbrRow i = true) : inOpenRow p i = true := by
  simp [inOpenRow, hp, hi]

theorem inOpenRow_of_y (hp : p.y ≠ 0) (hi : inYRow i = true) : inOpenRow p i = true := by
  simp [inOpenRow, hp, hi]

/-- With every window closed no row is open, whatever the fields of a closed window hold. -/
theorem inOpenRow_closed (hpsr : p.psr = 0) (hwim : p.wim = 0) (htbr : p.tbr = 0) (hy : p.y = 0) :
    inOpenRow p i = false := by
  simp [inOpenRow, hpsr, hwim, htbr, hy]

variable {c : PsrChanged}

theorem inPsrRow_of_icc (hc : c.icc = true) (hi : dependsOnIcc i = true) : inPsrRow c i = true := by
  unfold inPsrRow
  split
  case h_6 => simp [hc, hi]
  case h_1 | h_2 => rfl
  all_goals exact nomatch hi

theorem inPsrRow_of_cwp (hc : c.cwp = true) (hi : namesWindowed i = true) : inPsrRow c i = true := by
  unfold inPsrRow
  split <;> simp [hc, hi]

theorem inPsrRow_of_s (hc : c.s = true) (hi : isPrivileged i = true) : inPsrRow c i = true := by
  unfold inPsrRow
  split
  case h_5 | h_6 => simp [hc, hi]
  case h_1 | h_2 => rfl
  all_goals exact nomatch hi

end

theorem dependsOnIcc_branchOf {k : Cond} (ha : k ≠ .a) (hn : k ≠ .n) (a : Bool) (disp22 : BitVec 22) :
    dependsOnIcc (branchOf k a disp22) = true := by
  cases k
  case a => exact absurd rfl ha
  case n => exact absurd rfl hn
  all_goals rfl

theorem dependsOnIcc_trapOf {k : Cond} (ha : k ≠ .a) (hn : k ≠ .n) (rs1 : RegIdx) (num : TrapNumber) :
    dependsOnIcc (trapOf k rs1 num) = true := by
  cases k
  case a => exact absurd rfl ha
  case n => exact absurd rfl hn
  all_goals rfl

/-- Settles O57: each clause is membership in an open row, which `hazard` refuses; `hazard` refuses nothing else but a
couple; and `tick` counts each window. -/
theorem delayedWriteRefusals : Obligations.DelayedWriteRefusals := by
  intro s rd rs1 op2 num k a disp22 i
  refine ⟨fun hp j hj => ?psr, fun hp hc ha hn j hj => ?icc, fun hp hc hi => ?cwp, fun hp hc j hj => ?mode,
    fun hp hc => ?etPs, fun hp j hj => ?wim, fun hp j hj => ?tbr, fun hp j hj => ?y, fun hpsr hwim htbr hy hd => ?closed,
    fun hd => ?table, rfl, rfl, rfl, rfl⟩
  case psr =>
    refine runInstr_refused_of_inOpenRow (inOpenRow_of_psr hp ?_)
    simp only [List.mem_cons, List.not_mem_nil, or_false] at hj
    rcases hj with rfl | rfl <;> rfl
  case icc =>
    refine runInstr_refused_of_inOpenRow (inOpenRow_of_psr hp (inPsrRow_of_icc hc ?_))
    simp only [List.mem_cons, List.not_mem_nil, or_false] at hj
    rcases hj with rfl | rfl | rfl | rfl | rfl | rfl | rfl
    · exact dependsOnIcc_branchOf ha hn a disp22
    · exact dependsOnIcc_trapOf ha hn rs1 num
    all_goals rfl
  case cwp =>
    refine runInstr_refused_of_inOpenRow (inOpenRow_of_psr hp ?_)
    simp only [List.mem_cons, List.not_mem_nil, or_false] at hi
    rcases hi with hi | rfl | rfl | rfl
    · exact inPsrRow_of_cwp hc hi
    all_goals simp [inPsrRow, hc]
  case mode =>
    refine runInstr_refused_of_inOpenRow (inOpenRow_of_psr hp (inPsrRow_of_s hc ?_))
    simp only [List.mem_cons, List.not_mem_nil, or_false] at hj
    rcases hj with rfl | rfl | rfl | rfl | rfl | rfl | rfl <;> rfl
  case etPs =>
    refine runInstr_refused_of_inOpenRow (inOpenRow_of_psr hp ?_)
    rcases hc with hc | hc <;> simp [inPsrRow, hc]
  case wim =>
    refine runInstr_refused_of_inOpenRow (inOpenRow_of_wim hp ?_)
    simp only [List.mem_cons, List.not_mem_nil, or_false] at hj
    rcases hj with rfl | rfl | rfl | rfl | rfl <;> rfl
  case tbr =>
    refine runInstr_refused_of_inOpenRow (inOpenRow_of_tbr hp ?_)
    simp only [List.mem_cons, List.not_mem_nil, or_false] at hj
    rcases hj with rfl | rfl <;> rfl
  case y =>
    refine runInstr_refused_of_inOpenRow (inOpenRow_of_y hp ?_)
    simp only [List.mem_cons, List.not_mem_nil, or_false] at hj
    rcases hj with rfl | rfl | rfl | rfl | rfl | rfl | rfl | rfl | rfl | rfl | rfl <;> rfl
  case closed =>
    exact runInstr_of_no_hazard ((hazard_of_no_couple (.inl hd)).2 (inOpenRow_closed hpsr hwim htbr hy))
  case table =>
    obtain ⟨hopen, hclosed⟩ := hazard_of_no_couple hd
    refine ⟨fun hrow => ?_, fun hrow => runInstr_of_no_hazard (hclosed hrow)⟩
    obtain ⟨r, hr⟩ := hopen hrow
    exact ⟨r, runInstr_of_hazard hr⟩

end Sys2Proof.Machine
end

section
/-! Operands, UNIMP, and reading and writing the state registers (30_encoding.md rule R121, 42_load_store.md rule R201,
10_state.md rules R34 and R38, 46_state_register.md). -/

namespace Sys2Proof.Machine

/-! ## Operand 2 and the effective address -/

/-- Settles O6: sign extension keeps the signed value, and the addition is modulo 2^32. -/
theorem operandTwoAndAddress : Obligations.OperandTwoAndAddress := by
  intro s rs1 rs2 simm13
  have himm : (s.op2val (.imm simm13)).toInt = simm13.toInt := BitVec.toInt_signExtend_of_le (by decide)
  refine ⟨rfl, himm, BitVec.toNat_add .., ?_, readReg_zero s⟩
  rw [State.address, BitVec.toInt_add, himm]

/-! ## UNIMP -/

/-- Where traps are taken, raising one enters it. -/
theorem raise_entered {s : State} (h : TrapsTaken s) (t : Trap) : ∃ u, raise t s = .next u ∧ TrapEntered s u t.tt :=
  ⟨_, h.raise t, trapEntry_entered s t.tt⟩

/-- Settles O35: the meaning of UNIMP is its trap, and the row of FLUSH takes no other field. -/
theorem unimpAndFlushRule : Obligations.UnimpAndFlushRule := by
  intro cfg s bits rd const22 rest
  exact ⟨decode_unimp cfg bits const22, rfl, fun h => raise_entered h .illegalInstruction,
    decode_arith_rest (fun w hw => by rw [decodeArith, hw]; rfl) rd rest⟩

/-! ## The registers as words -/

/-- Settles O36: each field is a piece of the append that makes the word. -/
theorem psrAndTbrLayout : Obligations.PsrAndTbrLayout := by
  intro s
  refine ⟨?_, ?_, ?_, ?_, ?_, ?_, ?_, ?_, ?_, ?_, ?_, ?_, ?_, ?_, ?_, ?_, ?_, ?_⟩
  case refine_1 | refine_2 | refine_7 | refine_10 | refine_14 =>
    simp (disch := decide) only [State.psrWord, Psr.toWord, BitVec.extractLsb'_append_eq_of_le,
      BitVec.extractLsb'_append_eq_of_add_le, Nat.reduceSub, BitVec.extractLsb'_eq_self]
    <;> rfl
  case refine_15 | refine_16 | refine_17 =>
    simp (disch := decide) only [Tbr.toWord, BitVec.extractLsb'_append_eq_of_le,
      BitVec.extractLsb'_append_eq_of_add_le, Nat.reduceSub, BitVec.extractLsb'_eq_self]
    <;> rfl
  case refine_18 =>
    rw [Tbr.toWord, BitVec.toNat_append, BitVec.toNat_append, ← Nat.shiftLeft_add_eq_or_of_lt s.tbr.tt.isLt,
      BitVec.toNat_zero, Nat.or_zero, Nat.shiftLeft_eq, Nat.shiftLeft_eq]
    omega
  all_goals
    simp only [State.psrWord, Psr.toWord, BitVec.getLsbD_append, Nat.reduceLT, Nat.reduceSub, if_true, if_false,
      BitVec.getLsbD_ofBool]
    rfl

/-! ## Reading -/

section

variable (rd rs1 : RegIdx) (op2 : Operand2) (s : State)

theorem exec_rdpsr : exec (.rdpsr rd) s = privileged s (writeResult rd s.psrWord s) := rfl

theorem exec_rdwim : exec (.rdwim rd) s = privileged s (writeResult rd s.wimWord s) := rfl

theorem exec_rdtbr : exec (.rdtbr rd) s = privileged s (writeResult rd s.tbr.toWord s) := rfl

theorem exec_rdy : exec (.rdy rd) s = writeResult rd s.y s := rfl

theorem exec_wrpsr : exec (.wrpsr rs1 op2) s =
    privileged s
      (if s.cfg.nwindows.toNat ≤ (Psr.ofWord (s.writeValue rs1 op2)).cwp.toNat then raise .illegalInstruction s
        else .next (({ s with psr := Psr.ofWord (s.writeValue rs1 op2) } : State).advance.openPsrWindow s.psr)) := rfl

theorem exec_wrwim : exec (.wrwim rs1 op2) s =
    privileged s
      (.next ({ s with wim := s.writeValue rs1 op2 &&& windowMask s.cfg.nwindows } : State).advance.openWimWindow) := rfl

theorem exec_wrtbr : exec (.wrtbr rs1 op2) s =
    privileged s
      (.next ({ s with tbr := { s.tbr with tba := (s.writeValue rs1 op2).extractLsb' 12 20 } } : State).advance.openTbrWindow) :=
  rfl

theorem exec_wry : exec (.wry rs1 op2) s = .next (s.setY (s.writeValue rs1 op2)).advance.openYWindow := rfl

end

/-- The bits of a word masked to the windows. -/
theorem and_windowMask_getLsbD (v : Word) (n : NWindows) (w : Nat) :
    (v &&& windowMask n).getLsbD w = (decide (w < n.toNat) && v.getLsbD w) := by
  rw [BitVec.getLsbD_and, windowMask_getLsbD, Bool.and_comm]

/-- Settles O37: each meaning is `writeResult` of the register as a word, and each instruction is in the row of its
register. -/
theorem readStateRegisterRules : Obligations.ReadStateRegisterRules := by
  refine ⟨fun cfg rd unused unused14 => ?encodings, fun s rd => ?meanings⟩
  case encodings =>
    rw [format3_of_rest, format3_of_rest, format3_of_rest, format3_of_rest14]
    obtain ⟨hpsr, hwim, htbr⟩ := decode_format3_read cfg rd (unused.extractLsb' 14 5) (unused.extractLsb' 13 1)
      (unused.extractLsb' 0 13)
    exact ⟨hpsr, hwim, htbr, decode_format3_readAsr cfg rd 0 _ _⟩
  case meanings =>
    rw [exec_rdpsr, exec_rdwim, exec_rdtbr, exec_rdy]
    refine ⟨fun hs => ?_, fun hs => ?_, writeResult_spec ..,
      fun hp => runInstr_refused_of_inOpenRow (inOpenRow_of_psr hp rfl),
      fun hp => runInstr_refused_of_inOpenRow (inOpenRow_of_wim hp rfl),
      fun hp => runInstr_refused_of_inOpenRow (inOpenRow_of_tbr hp rfl),
      fun hp => runInstr_refused_of_inOpenRow (inOpenRow_of_y hp rfl)⟩
    · simp only [privileged_user hs, and_self]
    · simp only [privileged_supervisor hs]
      obtain ⟨t, ht, hc⟩ := writeResult_spec rd s.wimWord s
      exact ⟨writeResult_spec .., ⟨t, s.wimWord, ht, hc, fun w => and_windowMask_getLsbD ..⟩, writeResult_spec ..⟩

/-! ## Writing -/

/-- A row of the op = 10 map without a destination register. -/
theorem encodes3NoRd_of_row {cfg : Config} {op3 : BitVec 6} {k : RegIdx → Operand2 → Instr}
    (hrow : ∀ w, op3Field w = op3 → decodeArith cfg w = withOperand2 cfg w (rdField w == 0) (k (rs1Field w))) :
    Encodes3NoRd cfg op3 k := fun rs1 =>
  ⟨fun rs2 => decode_encodeArith_of_rowNoRd hrow rs1 (.reg rs2),
    fun simm13 => decode_encodeArith_of_rowNoRd hrow rs1 (.imm simm13)⟩

/-- The low five bits of a word as a number. -/
theorem psrOfWord_cwp_toNat (v : Word) : (Psr.ofWord v).cwp.toNat = v.toNat % 32 := by
  rw [Psr.ofWord, BitVec.extractLsb'_toNat, Nat.shiftRight_zero]

theorem bne_eq_decide_ne {α : Type} [DecidableEq α] (x y : α) : (x != y) = decide (x ≠ y) := by
  by_cases h : x = y <;> simp [h]

/-- Settles O38: the branches of the definition; the fields that changed are those `changedFrom` compares. -/
theorem writePsrRule : Obligations.WritePsrRule := by
  refine ⟨fun cfg => encodes3NoRd_of_row fun w hw => by rw [decodeArith, hw]; rfl, fun s rs1 op2 => ?_⟩
  intro v new
  have hcwp : (Psr.ofWord (s.writeValue rs1 op2)).cwp.toNat = v.toNat % 32 := psrOfWord_cwp_toNat v
  rw [exec_wrpsr, hcwp]
  refine ⟨fun hs => privileged_user hs _, fun hs hbad => ?_, fun hs hok => ?_⟩
  · rw [privileged_supervisor hs, if_pos hbad]
  · rw [privileged_supervisor hs, if_neg (by omega)]
    refine ⟨_, rfl, rfl, ⟨rfl, rfl, rfl⟩, RegsKept.of_eq rfl rfl _, MemKept.of_eq rfl rfl rfl, ⟨rfl, rfl, rfl, rfl⟩,
      rfl, rfl, rfl, ?_⟩
    have hchanged : Psr.changedFrom s.psr new =
        ⟨decide (s.psr.icc ≠ new.icc), decide (s.psr.pil ≠ new.pil), decide (s.psr.s ≠ new.s),
          decide (s.psr.ps ≠ new.ps), decide (s.psr.et ≠ new.et), decide (s.psr.cwp ≠ new.cwp)⟩ := by
      simp only [Psr.changedFrom, bne_eq_decide_ne]
    rw [← hchanged]
    rfl

/-- What the writes of WIM, TBR and Y leave unchanged. -/
theorem writesState_of_eq {s t : State} {p : Pending} (hr : t.regs = s.regs) (hm : t.mem = s.mem)
    (hst : t.storedTo = s.storedTo) (hd : t.dmaPending = s.dmaPending) (hh : HiddenKept s t) (hpc : t.pc = s.npc)
    (hnpc : t.npc = s.npc + 4) (hprev : t.dctiPrev = .none) (hp : t.pending = p) : WritesState s t p :=
  ⟨RegsKept.of_eq hr hh.cfg _, MemKept.of_eq hm hst hd, hh, hpc, hnpc, hprev, hp⟩

/-- Settles O39: one register written and its window opened. -/
theorem writeWimTbrYRules : Obligations.WriteWimTbrYRules := by
  refine ⟨fun cfg => ⟨?_, ?_, ?_⟩, fun s rs1 op2 => ?meanings⟩
  case refine_1 | refine_2 => exact encodes3NoRd_of_row fun w hw => by rw [decodeArith, hw]; rfl
  case refine_3 =>
    exact fun rs1 => ⟨fun rs2 => decode_encodeArith_write cfg 0 rs1 (.reg rs2),
      fun simm13 => decode_encodeArith_write cfg 0 rs1 (.imm simm13)⟩
  case meanings =>
    intro v
    rw [exec_wrwim, exec_wrtbr, exec_wry]
    refine ⟨fun hs => ?_, fun hs => ?_, ⟨_, rfl, rfl, rfl, rfl, rfl,
      writesState_of_eq rfl rfl rfl rfl ⟨rfl, rfl, rfl, rfl⟩ rfl rfl rfl rfl⟩⟩
    · simp only [privileged_user hs, and_self]
    · simp only [privileged_supervisor hs]
      exact ⟨⟨_, rfl, fun w => and_windowMask_getLsbD v .., rfl, rfl, rfl,
          writesState_of_eq rfl rfl rfl rfl ⟨rfl, rfl, rfl, rfl⟩ rfl rfl rfl rfl⟩,
        ⟨_, rfl, rfl, rfl, rfl, rfl, writesState_of_eq rfl rfl rfl rfl ⟨rfl, rfl, rfl, rfl⟩ rfl rfl rfl rfl⟩⟩

/-- Settles O40: a register number that is not 0 selects RDASR or WRASR, whose meaning is their trap. -/
theorem ancillaryRegisterRules : Obligations.AncillaryRegisterRules := by
  refine ⟨fun cfg rd asr rs1 rs2 unused14 simm13 hasr => ⟨?_, ?_, ?_⟩, fun s rd asr rs1 op2 =>
    ⟨rfl, rfl, fun h => ⟨raise_entered h .illegalInstruction, raise_entered h .illegalInstruction⟩⟩⟩
  · rw [format3_of_rest14, decode_format3_readAsr, if_neg hasr]
  · exact (decode_encodeArith_write cfg asr rs1 (.reg rs2)).trans (by rw [if_neg hasr])
  · exact (decode_encodeArith_write cfg asr rs1 (.imm simm13)).trans (by rw [if_neg hasr])

end Sys2Proof.Machine
end

section
/-! Traps and steps (60_exceptions.md, 70_reset_and_hazards.md, 20_memory.md sections 4 to 7): the table of traps, raising
one, error mode, the interrupt test, reset, the fetch, and the instruction a step runs. -/

namespace Sys2Proof.Machine

/-! ## Words, traps and the state after reset -/

/-- Settles O3: the decoder evaluated on each word. -/
theorem specExampleWordsDecode : Obligations.SpecExampleWordsDecode := by
  refine ⟨?_, ?_, ?_, ?_, ?_, ?_, ?_, ?_, ?_, ?_, ?_, ?_, ?_, ?_, ?_, ?_, ?_, ?_⟩ <;> rfl

/-- The trap type of an interrupt is 16 and its level. -/
theorem tt_interruptLevel_toNat (level : BitVec 4) : (Trap.interruptLevel level).tt.toNat = 0x10 + level.toNat := by
  rw [Trap.tt, BitVec.toNat_append, ← Nat.shiftLeft_add_eq_or_of_lt level.isLt]
  rfl

/-- Settles O42: the table is the definition. -/
theorem trapTable : Obligations.TrapTable :=
  ⟨⟨rfl, rfl⟩, ⟨rfl, rfl⟩, ⟨rfl, rfl⟩, ⟨rfl, rfl⟩, ⟨rfl, rfl⟩, ⟨rfl, rfl⟩, ⟨rfl, rfl⟩, ⟨rfl, rfl⟩, ⟨rfl, rfl⟩,
    ⟨rfl, rfl⟩, ⟨rfl, rfl⟩, fun n => ⟨tt_trapInstruction_toNat n, rfl⟩,
    fun level => ⟨tt_interruptLevel_toNat level, rfl⟩⟩

/-- Settles O47: the fields of `State.reset`; the layout of the words is `psrAndTbrLayout`. -/
theorem resetStateValues : Obligations.ResetStateValues := by
  refine ⟨rfl, rfl, rfl, rfl, by decide, rfl, ?_, ?_, ?_, ?_, ?_, ?_, rfl, rfl, rfl⟩ <;> decide

/-! ## Raising a trap -/

theorem modeOrWindowUnsettled_iff (s : State) : s.modeOrWindowUnsettled = true ↔
    s.pending.psr ≠ 0 ∧ (s.pending.changed.s = true ∨ s.pending.changed.cwp = true) := by
  rw [State.modeOrWindowUnsettled, Bool.and_eq_true, bne_iff_ne, Bool.or_eq_true]

/-- Settles O43: the branches of `raise`, with `enterErrorMode` and `trapEntry`. -/
theorem trapEntryRule : Obligations.TrapEntryRule := by
  intro trap s
  refine ⟨fun hp hc => ?_, fun hsettled het => ⟨_, ?_, enterErrorMode_inErrorMode s⟩, fun hsettled het htbr => ?_,
    fun h => raise_entered h trap⟩
  · rw [raise, (modeOrWindowUnsettled_iff s).2 ⟨hp, hc⟩, if_pos rfl]
  · rw [raise, hsettled, het, if_neg Bool.false_ne_true, if_pos rfl]
  · rw [raise, hsettled, het, if_neg Bool.false_ne_true, if_neg (by decide), if_pos htbr]

/-! ## Taking the environment's input in -/

/-- What DMA wrote during the step before lands first, then what it writes before this step. -/
theorem readByte_takeInput (s : State) (a : Word) :
    s.takeInput.readByte a = lastWrite (s.dmaPending ++ s.input.dma) a (s.readByte a) := by
  have hmem : s.takeInput.mem =
      (s.dmaPending ++ s.input.dma).foldl (fun m c => Memory.write m c.1.toNat c.2) s.mem := by
    rw [List.foldl_append]
    rfl
  rw [State.readByte, hmem]
  exact Memory.read_foldl_write ..

/-! ## The cases of a step -/

section

variable {s : State}

theorem step_of_reset {image : List (Word × Byte)} (h : s.input.reset = some image) :
    step s = .next (s.popInput.resetEntry image) := by simp only [step, h]

theorem step_of_error (he : s.errorMode = true) (hr : s.input.reset = none) :
    step s = errorModeStep s s.takeInput := by simp only [step, hr, he, if_true]

theorem step_of_running (he : s.errorMode = false) (hr : s.input.reset = none) :
    step s = withInterruptTest s.input.irl s.takeInput (runAtPc s.takeInput) := by
  simp only [step, hr, he, Bool.false_eq_true, if_false]

end

/-- Settles O44: `errorModeStep` waits with the input taken in, or faults; a reset comes before it. -/
theorem errorModeRule : Obligations.ErrorModeRule := by
  intro s he
  refine ⟨by simp [State.atEnd, he], fun hi hd => ?_, fun hmore hr => ?_, fun image hr => ?_⟩
  · have hr : s.input.reset = none := by rw [State.input, hi]; rfl
    rw [step_of_error he hr, errorModeStep, hi, hd]
    rfl
  · have hbusy : (s.inputs.isEmpty && s.dmaPending.isEmpty) = false := by
      rw [Bool.and_eq_false_iff, List.isEmpty_eq_false_iff, List.isEmpty_eq_false_iff]
      exact hmore
    rw [step_of_error he hr, errorModeStep, hbusy, if_neg Bool.false_ne_true]
    exact ⟨_, rfl, rfl, readByte_takeInput s⟩
  · exact ⟨_, step_of_reset hr, rfl, rfl⟩

/-! ## The interrupt test -/

theorem interruptTest_iff (irl : BitVec 4) (et : Bool) (pil : BitVec 4) :
    interruptTest irl et pil = true ↔ et = true ∧ (irl = 15 ∨ pil.toNat < irl.toNat) := by
  rw [interruptTest, Bool.and_eq_true, Bool.or_eq_true, beq_iff_eq, decide_eq_true_iff]

section

variable {irl : BitVec 4} {s : State} {k : Result}

/-- Inside the PSR window after a write that changed PIL the two values must agree. -/
theorem withInterruptTest_unsettled (hp : s.pending.psr ≠ 0) (hc : s.pending.changed.pil = true)
    (hne : interruptTest irl s.psr.et s.pending.oldPil ≠ interruptTest irl s.psr.et s.psr.pil) :
    withInterruptTest irl s k = .refused .interruptTestInDelayedWrite := by
  rw [withInterruptTest, if_pos (by simp [hp, hc, hne])]

/-- Where the test does not depend on which PIL it sees, it decides between the trap and the instruction. -/
theorem withInterruptTest_settled (h : s.pending.psr ≠ 0 → s.pending.changed.pil = true →
      interruptTest irl s.psr.et s.pending.oldPil = interruptTest irl s.psr.et s.psr.pil) :
    withInterruptTest irl s k =
      if interruptTest irl s.psr.et s.psr.pil then raise (.interruptLevel irl) s else k := by
  rw [withInterruptTest, if_neg]
  intro hc
  simp only [Bool.and_eq_true, bne_iff_ne] at hc
  exact hc.2 (h hc.1.1 hc.1.2)

end

/-- Settles O45: the interrupt test is `accepted`, and PSR and the delayed-write windows are as the input found them. -/
theorem interruptRule : Obligations.InterruptRule := by
  intro s he hr t irl accepted unsettled
  have haccepted : ∀ pil, interruptTest irl t.psr.et pil = true ↔ accepted pil := interruptTest_iff irl s.psr.et
  have hagree : (accepted s.pending.oldPil ↔ accepted s.psr.pil) ↔
      interruptTest irl t.psr.et t.pending.oldPil = interruptTest irl t.psr.et t.psr.pil := by
    rw [← haccepted, ← haccepted]
    exact Bool.eq_iff_iff.symm
  rw [step_of_running he hr]
  refine ⟨fun ⟨hp, hc⟩ hne => ?_, fun hsettled hacc => ?_, fun hsettled hacc => ?_⟩
  · exact withInterruptTest_unsettled hp hc fun h => hne (hagree.2 h)
  · have htest : interruptTest irl t.psr.et t.psr.pil = true := (haccepted _).2 hacc
    rw [withInterruptTest_settled fun hp hc => hagree.1 (hsettled ⟨hp, hc⟩), if_pos htest]
    refine ⟨rfl, fun htaken => ?_⟩
    have htt : BitVec.ofNat 8 (0x10 + irl.toNat) = (Trap.interruptLevel irl).tt := by
      rw [← tt_interruptLevel_toNat, BitVec.ofNat_toNat, BitVec.setWidth_eq]
    rw [htt]
    exact raise_entered htaken _
  · have htest : ¬interruptTest irl t.psr.et t.psr.pil = true := fun h => hacc ((haccepted _).1 h)
    rw [withInterruptTest_settled fun hp hc => hagree.1 (hsettled ⟨hp, hc⟩), if_neg htest]

/-! ## Reset -/

/-- Settles O46: the fields of `resetEntry`. -/
theorem resetRule : Obligations.ResetRule := by
  intro s image hr
  refine ⟨_, step_of_reset hr, rfl, rfl, rfl, rfl, psrAtReset_cwp_lt _ _, fun w hw => ?_, rfl, rfl, rfl, rfl, rfl, rfl,
    rfl, fun a => Memory.read_foldl_write image [] a⟩
  exact (and_windowMask_getLsbD ..).trans (by rw [popInput_cfg, decide_eq_false (by omega), Bool.false_and])

/-! ## The fetch -/

theorem fetchesStored_iff (s : State) :
    s.fetchesStored = true ↔ ∃ a ∈ bytesFrom s.pc 4, a.toNat ∈ s.storedTo := by
  simp [State.fetchesStored, fetchAddresses, mem_bytesFrom_four]

/-- Settles O49: the branches of `withFetch` and of `runDecoded`. -/
theorem fetchRule : Obligations.FetchRule := by
  intro s he hi hd
  have hdecode : decodeBytes s.cfg s.fetchBytes = decode s.cfg (s.readWord s.pc) := rfl
  rw [step_idle hi hd he, runAtPc]
  refine ⟨fun hacc => ?_, fun hacc hst => ?_, fun hacc hst => ?_⟩
  · rw [withFetch, hacc, if_pos rfl]
  · rw [withFetch, hacc, if_neg (by decide), if_pos ((fetchesStored_iff s).2 hst)]
  · have hfresh : s.fetchesStored = false := by
      rw [Bool.eq_false_iff, Ne, fetchesStored_iff]
      rintro ⟨a, ha, hmem⟩
      exact hst a ha hmem
    rw [withFetch_fetched hacc hfresh, hdecode]
    refine ⟨fun h => ?_, fun h => ?_, fun h => ?_, fun h => ?_, fun h => ?_, fun h => ?_⟩ <;> rw [h] <;> rfl

/-! ## The instruction a step runs -/

/-- Settles O48: with no interrupt accepted the step is `runInstr` of the decoded instruction. -/
theorem stepRunsDecodedInstruction : Obligations.StepRunsDecodedInstruction := by
  intro s i t
  refine ⟨takeInput_idle, rfl, readByte_takeInput s, fun he hr htest hold hacc hst hdec => ?_⟩
  have hsettled : t.pending.psr ≠ 0 → t.pending.changed.pil = true →
      interruptTest s.input.irl t.psr.et t.pending.oldPil = interruptTest s.input.irl t.psr.et t.psr.pil :=
    fun hp hc => (hold hp hc).trans htest.symm
  have htest' : ¬interruptTest s.input.irl t.psr.et t.psr.pil = true := by simp [t, htest]
  have hstep : step s = runInstr t i := by
    rw [step_of_running he hr, withInterruptTest_settled hsettled, if_neg htest', runAtPc, withFetch_fetched hacc hst,
      hdec, runDecoded]
  rw [hstep]
  exact ⟨fun r hz => runInstr_of_hazard hz, runInstr_of_no_hazard⟩

end Sys2Proof.Machine
end
